-- ==== Sys2Proof/Word.lean ====
section
/-! DEFINITION. The word types of the Voice DSP Block: a byte of the host window, a 32-bit word of either
memory or of an R or F register, and a 64-bit Fixed64 pattern of a P register (spec/10_state.md R30 to R33,
spec/20_memory.md R70, R72). -/

namespace Sys2Proof

/-- One byte, as the host window orders the bytes of a word (R72). -/
abbrev Byte := BitVec 8

/-- A 32-bit word: a memory word, an instruction word, an `R` register or a binary32 pattern (R30, R33, R70). -/
abbrev Word := BitVec 32

/-- A 64-bit pattern: a Fixed64 of a `P` register (R32) or a binary64 of two memory words (R72). -/
abbrev DWord := BitVec 64

end Sys2Proof
end

