-- ==== Sys2Proof/Syntax.lean ====
section
/-! DEFINITION. The VDB-1 command set (spec/30_encoding.md R106): one constructor per row of
spec/opcode_table.json, in the table's order. Register fields are bit fields of the encoding (R101, R102);
an immediate is held as the number that R103 says the instruction's field stands for. -/

namespace Sys2Proof

/-- Number of an integer register `R[0]` to `R[15]` (R102). -/
abbrev RReg := BitVec 4

/-- Number of a float register `F[0]` to `F[15]` (R102). -/
abbrev FReg := BitVec 4

/-- Number of a phase register `P[0]` to `P[7]`: the field of R102 less its top bit, which must be 0. -/
abbrev PReg := BitVec 3

/-- The instructions of R106. Operands stand in the field order a, b, c, d, an immediate last. -/
inductive Instr where
  | nop
  | halt
  | li (a : RReg) (imm : Int)
  | lui (a : RReg) (imm : Nat)
  | addi (a b : RReg) (imm : Int)
  | ori (a b : RReg) (imm : Nat)
  | add (a b c : RReg)
  | sub (a b c : RReg)
  | and (a b c : RReg)
  | or (a b c : RReg)
  | xor (a b c : RReg)
  | slt (a b c : RReg)
  | sltu (a b c : RReg)
  | j (offset : Int)
  | beqz (a : RReg) (offset : Int)
  | bnez (a : RReg) (offset : Int)
  | lw (a b : RReg) (imm : Int)
  | sw (a b : RReg) (imm : Int)
  | flw (a : FReg) (b : RReg) (imm : Int)
  | fsw (a : FReg) (b : RReg) (imm : Int)
  | plw (a : PReg) (b : RReg) (imm : Int)
  | psw (a : PReg) (b : RReg) (imm : Int)
  | pldd (a : PReg) (b : RReg) (imm : Int)
  | fadd (a b c : FReg)
  | fsub (a b c : FReg)
  | fmul (a b c : FReg)
  | fmvrf (a : FReg) (b : RReg)
  | fmvfr (a : RReg) (b : FReg)
  | fcvtsw (a : FReg) (b : RReg)
  | padd (a b c : PReg)
  | pneg (a b : PReg)
  | psubi (a b : PReg) (c : RReg)
  | pmask (a b : PReg) (c : RReg)
  | pwrap (a b : PReg) (c d : RReg)
  | prefl (a b : PReg) (c : RReg)
  | pint (a : RReg) (b : PReg)
  | pfrac (a : FReg) (b : PReg)
  | pge (a : RReg) (b : PReg) (c : RReg)
  | pmov (a b : PReg)
  | pfromf (a : PReg) (b : FReg)
  | wlk (a : FReg) (b : PReg) (c : RReg) (d : FReg)
  | vrampa (a : RReg) (b c : FReg) (d : RReg)
  | vrampm (a : RReg) (b c : FReg) (d : RReg)
  | iir2di (a b c d : RReg)
  | iir2dii (a b c d : RReg)
  | iir1ap (a b c d : RReg)
  | iir2diMacc (a b c d : RReg)
  | iir2diiMacc (a b c d : RReg)
  | iir1apMacc (a b c d : RReg)
deriving DecidableEq, Repr

end Sys2Proof
end

