-- ==== Sys2Proof/WellFormed.lean ====
section
/-! DEFINITION. Which instruction terms the encoding can hold: each immediate lies in the range that
spec/30_encoding.md R103 gives for its field. Register fields need no check: their types are the fields. -/

namespace Sys2Proof

/-- Range of `sext_32(imm18)` (R103): [-131072, 131071]. -/
def fitsSigned18 (i : Int) : Bool := decide (-131072 ≤ i) && decide (i ≤ 131071)

/-- Range of `zext_32(imm18)` (R103): [0, 262143]. -/
def fitsUnsigned18 (n : Nat) : Bool := decide (n ≤ 262143)

/-- Range of `sext_32(imm22)` (R103): [-2097152, 2097151]. -/
def fitsSigned22 (i : Int) : Bool := decide (-2097152 ≤ i) && decide (i ≤ 2097151)

/-- Range of the 22-bit field of `LUI` (R103): [0, 4194303]. -/
def fitsUnsigned22 (n : Nat) : Bool := decide (n ≤ 4194303)

/-- An instruction term that some word encodes (R103): every immediate fits its field. -/
def Instr.wellFormed : Instr → Bool
  | .li _ imm => fitsSigned22 imm
  | .lui _ imm => fitsUnsigned22 imm
  | .addi _ _ imm => fitsSigned18 imm
  | .ori _ _ imm => fitsUnsigned18 imm
  | .j offset => fitsSigned22 offset
  | .beqz _ offset => fitsSigned22 offset
  | .bnez _ offset => fitsSigned22 offset
  | .lw _ _ imm => fitsSigned18 imm
  | .sw _ _ imm => fitsSigned18 imm
  | .flw _ _ imm => fitsSigned18 imm
  | .fsw _ _ imm => fitsSigned18 imm
  | .plw _ _ imm => fitsSigned18 imm
  | .psw _ _ imm => fitsSigned18 imm
  | .pldd _ _ imm => fitsSigned18 imm
  | .nop | .halt => true
  | .add _ _ _ | .sub _ _ _ | .and _ _ _ | .or _ _ _ | .xor _ _ _ | .slt _ _ _ | .sltu _ _ _ => true
  | .fadd _ _ _ | .fsub _ _ _ | .fmul _ _ _ | .fmvrf _ _ | .fmvfr _ _ | .fcvtsw _ _ => true
  | .padd _ _ _ | .pneg _ _ | .psubi _ _ _ | .pmask _ _ _ | .pwrap _ _ _ _ | .prefl _ _ _ => true
  | .pint _ _ | .pfrac _ _ | .pge _ _ _ | .pmov _ _ | .pfromf _ _ => true
  | .wlk _ _ _ _ | .vrampa _ _ _ _ | .vrampm _ _ _ _ => true
  | .iir2di _ _ _ _ | .iir2dii _ _ _ _ | .iir1ap _ _ _ _ => true
  | .iir2diMacc _ _ _ _ | .iir2diiMacc _ _ _ _ | .iir1apMacc _ _ _ _ => true

end Sys2Proof
end

