-- ==== Sys2Proof/Decode.lean ====
section
/-! DEFINITION. The decoder, total on every word and rejecting by name (spec/30_encoding.md R100 to R107), and
after it the encoder, written from the same formats of R101. -/

namespace Sys2Proof

/-- Why a word is no instruction: the four cases that R107 lists, and a byte string that is not one word. Each
of the first four raises `ILLEGAL_INSTR` when the word is executed. -/
inductive Illegal where
  /-- A reserved major opcode of R105. -/
  | reservedOpcode
  /-- An unassigned `fn` value of opcodes 0x06, 0x14, 0x18, 0x1C, 0x20, 0x24 (R107). -/
  | reservedFunction
  /-- A field that the instruction does not use is not 0 (R102). -/
  | unusedField
  /-- A `P` field with its top bit set (R102). -/
  | phaseField
  /-- Not four bytes: no instruction word (R100). -/
  | notOneWord
deriving DecidableEq, Repr

/-- What a word decodes to: an instruction of R106, or the name of why it is none (R107). -/
inductive Decoded where
  | instr (i : Instr)
  | illegal (why : Illegal)
deriving DecidableEq, Repr

/-! ## Fields of a word (R101) -/

/-- Major opcode, bits 31:26. -/
def opField (w : Word) : BitVec 6 := w.extractLsb' 26 6
/-- Field `a`, bits 25:22. -/
def aField (w : Word) : BitVec 4 := w.extractLsb' 22 4
/-- Field `b`, bits 21:18. -/
def bField (w : Word) : BitVec 4 := w.extractLsb' 18 4
/-- Field `c`, bits 17:14. -/
def cField (w : Word) : BitVec 4 := w.extractLsb' 14 4
/-- Field `d`, bits 13:10. -/
def dField (w : Word) : BitVec 4 := w.extractLsb' 10 4
/-- Field `fn`, bits 9:0. -/
def fnField (w : Word) : BitVec 10 := w.extractLsb' 0 10
/-- Field `imm18`, bits 17:0. -/
def imm18Field (w : Word) : BitVec 18 := w.extractLsb' 0 18
/-- Field `imm22`, bits 21:0. -/
def imm22Field (w : Word) : BitVec 22 := w.extractLsb' 0 22

/-- Value of a signed 18-bit immediate (R103). -/
def signed18 (w : Word) : Int := (imm18Field w).toInt
/-- Value of an unsigned 18-bit immediate (R103). -/
def unsigned18 (w : Word) : Nat := (imm18Field w).toNat
/-- Value of a signed 22-bit immediate (R103). -/
def signed22 (w : Word) : Int := (imm22Field w).toInt
/-- Value of an unsigned 22-bit immediate (R103). -/
def unsigned22 (w : Word) : Nat := (imm22Field w).toNat

/-- The register a `P` field names: its low three bits (R102). -/
def phaseReg (x : BitVec 4) : PReg := x.extractLsb' 0 3

/-! ## Decoding -/

/-- Accepts `i` when the top bit of every `P` field is 0 and every unused field is 0 (R102). -/
def checkFields (phase unused : List (BitVec 4)) (i : Instr) : Decoded :=
  if phase.any (fun x => x.msb) then .illegal .phaseField
  else if unused.any (fun x => x != 0#4) then .illegal .unusedField
  else .instr i

/-- Format N (R101): every bit below the opcode is 0. -/
def decodeN (w : Word) (i : Instr) : Decoded :=
  if w.extractLsb' 0 26 = 0#26 then .instr i else .illegal .unusedField

/-- Integer ALU, opcode 0x06 (R105, R106). -/
def decodeAlu (w : Word) : Decoded :=
  match (fnField w).toNat with
  | 0 => checkFields [] [dField w] (.add (aField w) (bField w) (cField w))
  | 1 => checkFields [] [dField w] (.sub (aField w) (bField w) (cField w))
  | 2 => checkFields [] [dField w] (.and (aField w) (bField w) (cField w))
  | 3 => checkFields [] [dField w] (.or (aField w) (bField w) (cField w))
  | 4 => checkFields [] [dField w] (.xor (aField w) (bField w) (cField w))
  | 5 => checkFields [] [dField w] (.slt (aField w) (bField w) (cField w))
  | 6 => checkFields [] [dField w] (.sltu (aField w) (bField w) (cField w))
  | _ => .illegal .reservedFunction

/-- Scalar float, opcode 0x14 (R105, R106). -/
def decodeFloat (w : Word) : Decoded :=
  match (fnField w).toNat with
  | 0 => checkFields [] [dField w] (.fadd (aField w) (bField w) (cField w))
  | 1 => checkFields [] [dField w] (.fsub (aField w) (bField w) (cField w))
  | 2 => checkFields [] [dField w] (.fmul (aField w) (bField w) (cField w))
  | 8 => checkFields [] [cField w, dField w] (.fmvrf (aField w) (bField w))
  | 9 => checkFields [] [cField w, dField w] (.fmvfr (aField w) (bField w))
  | 10 => checkFields [] [cField w, dField w] (.fcvtsw (aField w) (bField w))
  | _ => .illegal .reservedFunction

/-- Phase, opcode 0x18 (R105, R106). -/
def decodePhase (w : Word) : Decoded :=
  let a := aField w
  let b := bField w
  let c := cField w
  let d := dField w
  match (fnField w).toNat with
  | 0 => checkFields [a, b, c] [d] (.padd (phaseReg a) (phaseReg b) (phaseReg c))
  | 1 => checkFields [a, b] [c, d] (.pneg (phaseReg a) (phaseReg b))
  | 2 => checkFields [a, b] [d] (.psubi (phaseReg a) (phaseReg b) c)
  | 3 => checkFields [a, b] [d] (.pmask (phaseReg a) (phaseReg b) c)
  | 4 => checkFields [a, b] [] (.pwrap (phaseReg a) (phaseReg b) c d)
  | 5 => checkFields [a, b] [d] (.prefl (phaseReg a) (phaseReg b) c)
  | 6 => checkFields [b] [c, d] (.pint a (phaseReg b))
  | 7 => checkFields [b] [c, d] (.pfrac a (phaseReg b))
  | 8 => checkFields [b] [d] (.pge a (phaseReg b) c)
  | 9 => checkFields [a, b] [c, d] (.pmov (phaseReg a) (phaseReg b))
  | 10 => checkFields [a] [c, d] (.pfromf (phaseReg a) b)
  | _ => .illegal .reservedFunction

/-- Wavetable lookup, opcode 0x1C (R105, R106). -/
def decodeWave (w : Word) : Decoded :=
  match (fnField w).toNat with
  | 0 => checkFields [bField w] [] (.wlk (aField w) (phaseReg (bField w)) (cField w) (dField w))
  | _ => .illegal .reservedFunction

/-- Ramps, opcode 0x20 (R105, R106). -/
def decodeRamp (w : Word) : Decoded :=
  match (fnField w).toNat with
  | 0 => .instr (.vrampa (aField w) (bField w) (cField w) (dField w))
  | 1 => .instr (.vrampm (aField w) (bField w) (cField w) (dField w))
  | _ => .illegal .reservedFunction

/-- IIR filters, opcode 0x24: `fn[1:0]` is the kernel, `fn[2]` the MACC bit (R105, R106). -/
def decodeIir (w : Word) : Decoded :=
  match (fnField w).toNat with
  | 0 => .instr (.iir2di (aField w) (bField w) (cField w) (dField w))
  | 1 => .instr (.iir2dii (aField w) (bField w) (cField w) (dField w))
  | 2 => .instr (.iir1ap (aField w) (bField w) (cField w) (dField w))
  | 4 => .instr (.iir2diMacc (aField w) (bField w) (cField w) (dField w))
  | 5 => .instr (.iir2diiMacc (aField w) (bField w) (cField w) (dField w))
  | 6 => .instr (.iir1apMacc (aField w) (bField w) (cField w) (dField w))
  | _ => .illegal .reservedFunction

/-- The instruction that a word is, or why it is none (R105 to R107). -/
def decode (w : Word) : Decoded :=
  let a := aField w
  let b := bField w
  match (opField w).toNat with
  | 0x00 => decodeN w .nop
  | 0x01 => decodeN w .halt
  | 0x02 => .instr (.li a (signed22 w))
  | 0x03 => .instr (.lui a (unsigned22 w))
  | 0x04 => .instr (.addi a b (signed18 w))
  | 0x05 => .instr (.ori a b (unsigned18 w))
  | 0x06 => decodeAlu w
  | 0x08 => checkFields [] [a] (.j (signed22 w))
  | 0x09 => .instr (.beqz a (signed22 w))
  | 0x0A => .instr (.bnez a (signed22 w))
  | 0x0C => .instr (.lw a b (signed18 w))
  | 0x0D => .instr (.sw a b (signed18 w))
  | 0x0E => .instr (.flw a b (signed18 w))
  | 0x0F => .instr (.fsw a b (signed18 w))
  | 0x10 => checkFields [a] [] (.plw (phaseReg a) b (signed18 w))
  | 0x11 => checkFields [a] [] (.psw (phaseReg a) b (signed18 w))
  | 0x12 => checkFields [a] [] (.pldd (phaseReg a) b (signed18 w))
  | 0x14 => decodeFloat w
  | 0x18 => decodePhase w
  | 0x1C => decodeWave w
  | 0x20 => decodeRamp w
  | 0x24 => decodeIir w
  | _ => .illegal .reservedOpcode

/-- The four bytes of a word as the host window orders them, bits 7:0 first (R72). -/
def wordBytes (w : Word) : List Byte :=
  [w.extractLsb' 0 8, w.extractLsb' 8 8, w.extractLsb' 16 8, w.extractLsb' 24 8]

/-- The word of four bytes in the window's order, bits 7:0 first (R72). -/
def bytesWord (b0 b1 b2 b3 : Byte) : Word := b3 ++ b2 ++ b1 ++ b0

/-- Decodes a string of bytes laid out as the host window stores an instruction word (R72, R100). -/
def decodeBytes : List Byte → Decoded
  | [b0, b1, b2, b3] => decode (bytesWord b0 b1 b2 b3)
  | _ => .illegal .notOneWord

/-- The bytes of the `n` lowest bytes of a number, least significant first. -/
def littleEndian : Nat → Nat → List Byte
  | 0, _ => []
  | n + 1, w => BitVec.ofNat 8 w :: littleEndian n (w / 256)

/-- What the decoder reads from an instruction whose lowest `nbits` bits are `w` and whose other bits are 0,
numbered as spec/opcode_table.json numbers them. A number that does not fit a word is no instruction (R100). -/
def decodeTableWord (nbits w : Nat) : Option Instr :=
  if nbits ≤ 32 ∧ w < 2 ^ nbits then
    match decodeBytes (littleEndian 4 w) with
    | .instr i => some i
    | .illegal _ => none
  else none

/-! ## Encoding (R101, R103, R106) -/

/-- Format R: op, a, b, c, d, fn (R101). -/
def formatR (op : BitVec 6) (a b c d : BitVec 4) (fn : BitVec 10) : Word := op ++ a ++ b ++ c ++ d ++ fn

/-- Format I: op, a, b and an 18-bit immediate (R101). -/
def formatI (op : BitVec 6) (a b : BitVec 4) (imm : BitVec 18) : Word := op ++ a ++ b ++ imm

/-- Formats U and B, and format J with `a` = 0: op, a and a 22-bit immediate (R101). -/
def formatU (op : BitVec 6) (a : BitVec 4) (imm : BitVec 22) : Word := op ++ a ++ imm

/-- Format N: op, every other bit 0 (R101). -/
def formatN (op : BitVec 6) : Word := op ++ 0#26

/-- The field that names a `P` register: its top bit is 0 (R102). -/
def phaseField (p : PReg) : BitVec 4 := 0#1 ++ p

/-- The word of an instruction (R106). An immediate outside its range is truncated to its field. -/
def encode : Instr → Word
  | .nop => formatN 0x00#6
  | .halt => formatN 0x01#6
  | .li a imm => formatU 0x02#6 a (BitVec.ofInt 22 imm)
  | .lui a imm => formatU 0x03#6 a (BitVec.ofNat 22 imm)
  | .addi a b imm => formatI 0x04#6 a b (BitVec.ofInt 18 imm)
  | .ori a b imm => formatI 0x05#6 a b (BitVec.ofNat 18 imm)
  | .add a b c => formatR 0x06#6 a b c 0#4 0#10
  | .sub a b c => formatR 0x06#6 a b c 0#4 1#10
  | .and a b c => formatR 0x06#6 a b c 0#4 2#10
  | .or a b c => formatR 0x06#6 a b c 0#4 3#10
  | .xor a b c => formatR 0x06#6 a b c 0#4 4#10
  | .slt a b c => formatR 0x06#6 a b c 0#4 5#10
  | .sltu a b c => formatR 0x06#6 a b c 0#4 6#10
  | .j offset => formatU 0x08#6 0#4 (BitVec.ofInt 22 offset)
  | .beqz a offset => formatU 0x09#6 a (BitVec.ofInt 22 offset)
  | .bnez a offset => formatU 0x0A#6 a (BitVec.ofInt 22 offset)
  | .lw a b imm => formatI 0x0C#6 a b (BitVec.ofInt 18 imm)
  | .sw a b imm => formatI 0x0D#6 a b (BitVec.ofInt 18 imm)
  | .flw a b imm => formatI 0x0E#6 a b (BitVec.ofInt 18 imm)
  | .fsw a b imm => formatI 0x0F#6 a b (BitVec.ofInt 18 imm)
  | .plw a b imm => formatI 0x10#6 (phaseField a) b (BitVec.ofInt 18 imm)
  | .psw a b imm => formatI 0x11#6 (phaseField a) b (BitVec.ofInt 18 imm)
  | .pldd a b imm => formatI 0x12#6 (phaseField a) b (BitVec.ofInt 18 imm)
  | .fadd a b c => formatR 0x14#6 a b c 0#4 0#10
  | .fsub a b c => formatR 0x14#6 a b c 0#4 1#10
  | .fmul a b c => formatR 0x14#6 a b c 0#4 2#10
  | .fmvrf a b => formatR 0x14#6 a b 0#4 0#4 8#10
  | .fmvfr a b => formatR 0x14#6 a b 0#4 0#4 9#10
  | .fcvtsw a b => formatR 0x14#6 a b 0#4 0#4 10#10
  | .padd a b c => formatR 0x18#6 (phaseField a) (phaseField b) (phaseField c) 0#4 0#10
  | .pneg a b => formatR 0x18#6 (phaseField a) (phaseField b) 0#4 0#4 1#10
  | .psubi a b c => formatR 0x18#6 (phaseField a) (phaseField b) c 0#4 2#10
  | .pmask a b c => formatR 0x18#6 (phaseField a) (phaseField b) c 0#4 3#10
  | .pwrap a b c d => formatR 0x18#6 (phaseField a) (phaseField b) c d 4#10
  | .prefl a b c => formatR 0x18#6 (phaseField a) (phaseField b) c 0#4 5#10
  | .pint a b => formatR 0x18#6 a (phaseField b) 0#4 0#4 6#10
  | .pfrac a b => formatR 0x18#6 a (phaseField b) 0#4 0#4 7#10
  | .pge a b c => formatR 0x18#6 a (phaseField b) c 0#4 8#10
  | .pmov a b => formatR 0x18#6 (phaseField a) (phaseField b) 0#4 0#4 9#10
  | .pfromf a b => formatR 0x18#6 (phaseField a) b 0#4 0#4 10#10
  | .wlk a b c d => formatR 0x1C#6 a (phaseField b) c d 0#10
  | .vrampa a b c d => formatR 0x20#6 a b c d 0#10
  | .vrampm a b c d => formatR 0x20#6 a b c d 1#10
  | .iir2di a b c d => formatR 0x24#6 a b c d 0#10
  | .iir2dii a b c d => formatR 0x24#6 a b c d 1#10
  | .iir1ap a b c d => formatR 0x24#6 a b c d 2#10
  | .iir2diMacc a b c d => formatR 0x24#6 a b c d 4#10
  | .iir2diiMacc a b c d => formatR 0x24#6 a b c d 5#10
  | .iir1apMacc a b c d => formatR 0x24#6 a b c d 6#10

/-! ## The opcode table as R106 prints it -/

/-- One row of R106: a word `w` is the row's instruction exactly when `(w & mask) == match`. -/
structure OpcodeRow where
  mnemonic : String
  pattern : Word
  mask : Word
deriving DecidableEq, Repr

/-- The row of R106 that an instruction term belongs to. -/
def opcodeRow : Instr → OpcodeRow
  | .nop => ⟨"NOP", 0x00000000, 0xFFFFFFFF⟩
  | .halt => ⟨"HALT", 0x04000000, 0xFFFFFFFF⟩
  | .li _ _ => ⟨"LI", 0x08000000, 0xFC000000⟩
  | .lui _ _ => ⟨"LUI", 0x0C000000, 0xFC000000⟩
  | .addi _ _ _ => ⟨"ADDI", 0x10000000, 0xFC000000⟩
  | .ori _ _ _ => ⟨"ORI", 0x14000000, 0xFC000000⟩
  | .add _ _ _ => ⟨"ADD", 0x18000000, 0xFC003FFF⟩
  | .sub _ _ _ => ⟨"SUB", 0x18000001, 0xFC003FFF⟩
  | .and _ _ _ => ⟨"AND", 0x18000002, 0xFC003FFF⟩
  | .or _ _ _ => ⟨"OR", 0x18000003, 0xFC003FFF⟩
  | .xor _ _ _ => ⟨"XOR", 0x18000004, 0xFC003FFF⟩
  | .slt _ _ _ => ⟨"SLT", 0x18000005, 0xFC003FFF⟩
  | .sltu _ _ _ => ⟨"SLTU", 0x18000006, 0xFC003FFF⟩
  | .j _ => ⟨"J", 0x20000000, 0xFFC00000⟩
  | .beqz _ _ => ⟨"BEQZ", 0x24000000, 0xFC000000⟩
  | .bnez _ _ => ⟨"BNEZ", 0x28000000, 0xFC000000⟩
  | .lw _ _ _ => ⟨"LW", 0x30000000, 0xFC000000⟩
  | .sw _ _ _ => ⟨"SW", 0x34000000, 0xFC000000⟩
  | .flw _ _ _ => ⟨"FLW", 0x38000000, 0xFC000000⟩
  | .fsw _ _ _ => ⟨"FSW", 0x3C000000, 0xFC000000⟩
  | .plw _ _ _ => ⟨"PLW", 0x40000000, 0xFE000000⟩
  | .psw _ _ _ => ⟨"PSW", 0x44000000, 0xFE000000⟩
  | .pldd _ _ _ => ⟨"PLDD", 0x48000000, 0xFE000000⟩
  | .fadd _ _ _ => ⟨"FADD", 0x50000000, 0xFC003FFF⟩
  | .fsub _ _ _ => ⟨"FSUB", 0x50000001, 0xFC003FFF⟩
  | .fmul _ _ _ => ⟨"FMUL", 0x50000002, 0xFC003FFF⟩
  | .fmvrf _ _ => ⟨"FMVRF", 0x50000008, 0xFC03FFFF⟩
  | .fmvfr _ _ => ⟨"FMVFR", 0x50000009, 0xFC03FFFF⟩
  | .fcvtsw _ _ => ⟨"FCVTSW", 0x5000000A, 0xFC03FFFF⟩
  | .padd _ _ _ => ⟨"PADD", 0x60000000, 0xFE223FFF⟩
  | .pneg _ _ => ⟨"PNEG", 0x60000001, 0xFE23FFFF⟩
  | .psubi _ _ _ => ⟨"PSUBI", 0x60000002, 0xFE203FFF⟩
  | .pmask _ _ _ => ⟨"PMASK", 0x60000003, 0xFE203FFF⟩
  | .pwrap _ _ _ _ => ⟨"PWRAP", 0x60000004, 0xFE2003FF⟩
  | .prefl _ _ _ => ⟨"PREFL", 0x60000005, 0xFE203FFF⟩
  | .pint _ _ => ⟨"PINT", 0x60000006, 0xFC23FFFF⟩
  | .pfrac _ _ => ⟨"PFRAC", 0x60000007, 0xFC23FFFF⟩
  | .pge _ _ _ => ⟨"PGE", 0x60000008, 0xFC203FFF⟩
  | .pmov _ _ => ⟨"PMOV", 0x60000009, 0xFE23FFFF⟩
  | .pfromf _ _ => ⟨"PFROMF", 0x6000000A, 0xFE03FFFF⟩
  | .wlk _ _ _ _ => ⟨"WLK", 0x70000000, 0xFC2003FF⟩
  | .vrampa _ _ _ _ => ⟨"VRAMPA", 0x80000000, 0xFC0003FF⟩
  | .vrampm _ _ _ _ => ⟨"VRAMPM", 0x80000001, 0xFC0003FF⟩
  | .iir2di _ _ _ _ => ⟨"IIR2DI", 0x90000000, 0xFC0003FF⟩
  | .iir2dii _ _ _ _ => ⟨"IIR2DII", 0x90000001, 0xFC0003FF⟩
  | .iir1ap _ _ _ _ => ⟨"IIR1AP", 0x90000002, 0xFC0003FF⟩
  | .iir2diMacc _ _ _ _ => ⟨"IIR2DI.MACC", 0x90000004, 0xFC0003FF⟩
  | .iir2diiMacc _ _ _ _ => ⟨"IIR2DII.MACC", 0x90000005, 0xFC0003FF⟩
  | .iir1apMacc _ _ _ _ => ⟨"IIR1AP.MACC", 0x90000006, 0xFC0003FF⟩

/-- One term of each constructor, in the order of R106. -/
def oneOfEach : List Instr :=
  [.nop, .halt, .li 0 0, .lui 0 0, .addi 0 0 0, .ori 0 0 0, .add 0 0 0, .sub 0 0 0, .and 0 0 0, .or 0 0 0,
   .xor 0 0 0, .slt 0 0 0, .sltu 0 0 0, .j 0, .beqz 0 0, .bnez 0 0, .lw 0 0 0, .sw 0 0 0, .flw 0 0 0,
   .fsw 0 0 0, .plw 0 0 0, .psw 0 0 0, .pldd 0 0 0, .fadd 0 0 0, .fsub 0 0 0, .fmul 0 0 0, .fmvrf 0 0,
   .fmvfr 0 0, .fcvtsw 0 0] ++
  [.padd 0 0 0, .pneg 0 0, .psubi 0 0 0, .pmask 0 0 0, .pwrap 0 0 0 0, .prefl 0 0 0, .pint 0 0, .pfrac 0 0,
   .pge 0 0 0, .pmov 0 0, .pfromf 0 0, .wlk 0 0 0 0, .vrampa 0 0 0 0, .vrampm 0 0 0 0, .iir2di 0 0 0 0,
   .iir2dii 0 0 0 0, .iir1ap 0 0 0 0, .iir2diMacc 0 0 0 0, .iir2diiMacc 0 0 0 0, .iir1apMacc 0 0 0 0]

/-- The complete opcode table of R106. -/
def opcodeTable : List OpcodeRow := oneOfEach.map opcodeRow

end Sys2Proof
end

