-- ==== Sys2Proof/Config.lean ====
section
/-! DEFINITION. What an implementation fixes (spec/00_scope.md R7, the OPEN parameters) and the free values of
the model (spec/93_implementation_defined.md): constants without a body, so that no proof can rest on a value. -/

namespace Sys2Proof

/-- How `P_RATIO` chooses between the two faithful roundings of the exact root (R204; log 3). -/
inductive RatioRounding where
  /-- The spec's default: the correctly rounded value, ties to even. -/
  | nearest
  /-- The implementation's own choice, operand by operand: `Config.ratioRoundsUp`. -/
  | implementation
deriving DecidableEq, Repr

/-- The parameters of R7 that have no value in the spec. A state carries them, so a statement about every state
is a statement about every implementation (log 2). -/
structure Params where
  /-- `P_IMEM_WORDS`, read by the host at `CFG_IMEM` (R43). -/
  imemWords : Nat
  /-- `P_DMEM_WORDS`, read by the host at `CFG_DMEM` (R43). -/
  dmemWords : Nat
  /-- `P_RAMP_FLOOR` as a binary32 pattern, read by the host at `CFG_FLOOR` (R43). -/
  rampFloor : Word
  /-- The choice inside `P_RATIO` (R204). -/
  ratio : RatioRounding
deriving DecidableEq, Repr

/-- The limits of R7: 1 to 16384 command words, 16 to 2^24 data words, and a ramp floor between 2^-126
(0x00800000) and 1.0 (0x3F800000). -/
def Params.legal (p : Params) : Bool :=
  decide (1 ≤ p.imemWords) && decide (p.imemWords ≤ 16384) &&
  decide (16 ≤ p.dmemWords) && decide (p.dmemWords ≤ 2 ^ 24) &&
  decide (0x00800000 ≤ p.rampFloor.toNat) && decide (p.rampFloor.toNat ≤ 0x3F800000)

/-- DESIGN CHOICE (log 2), unsafe for statements about `State.reset` alone: the parameter values of the test
instance of spec/95_test_vectors.md, with the spec's default ratio (R204). -/
def Params.testInstance : Params :=
  { imemWords := 1024, dmemWords := 4096, rampFloor := 0x35800000, ratio := .nearest }

/-- What a byte of either memory reads as that the state does not list. DESIGN CHOICE (log 1), unsafe for
statements about `State.reset` alone: the spec leaves memory contents at power-up unspecified (R340), and a
state can list any contents. -/
def unlistedByte : Byte := 0x00

/-- Free value (log 3): whether an implementation rounds `P_RATIO(a, b, n)` up where the root is not a binary32
value (R204, U4). -/
opaque Config.ratioRoundsUp (a b : Word) (n : Nat) : Bool

/-- Free value (log 6): the words that a reset in the middle of an instruction leaves in the instruction's
target region (R340, U26), numbered by `State.freeIndex`. -/
opaque Config.abandonedWord (k : Nat) : Word

end Sys2Proof
end

