-- ==== Sys2Proof/Machine/State.lean ====
section
/-! DEFINITION. The state of one VDB (spec/10_state.md R30 to R48), its reset (spec/70_reset_and_hazards.md
R340), and the reasons a step can stop. -/

namespace Sys2Proof.Machine

/-- Why a step of the model stops without a next state. Every fault of the spec is a NEXT state instead: the
fault action of R303 (`takeFault`). -/
inductive Fault where
  /-- Raised by `step` alone, on a state whose parameters lie outside the limits of R7, which no VDB has. Safe:
  the model stops where the spec describes no machine. No step changes a parameter, so no run from a state with
  legal parameters reaches it (log 10). -/
  | illegalParameters
deriving DecidableEq, Repr

/-- What the model declines to do. -/
inductive Refusal where
  /-- An instruction without a meaning yet: raised by an arm of `exec`. No arm does. -/
  | notModelled (mnemonic : String)
  /-- Raised by a host turn that is no aligned 32-bit access (R45 (a), R75: the model refuses it). Safe. -/
  | hostAccessForm
  /-- Raised by a host turn that touches `PCR`, the fault record, a register or a memory while `STATUS.RUN` = 1
  (R45 (b), R345: the model refuses it). Safe. -/
  | hostAccessWhileRunning
deriving DecidableEq, Repr

/-- One turn of an agent outside the sequencer, or one turn given to the sequencer. The list of turns that a
state carries is the interleaving of the agents (R82; log 4). -/
inductive Turn where
  /-- The sequencer has the turn. -/
  | sequencer
  /-- The host reads `width` bytes at a byte offset of its window (R44, R45). -/
  | hostRead (width offset : Nat)
  /-- The host writes `width` bytes at a byte offset of its window (R44, R45). -/
  | hostWrite (width offset : Nat) (data : Word)
  /-- The pending writes of `CTRL.STOP` take effect between two instructions, where the sequencer has none in
  progress to finish (R38, R82; log 22). -/
  | stopTakesEffect
  /-- The platform asserts reset between two instructions (R340). -/
  | reset
  /-- The platform asserts reset while the sequencer is in the middle of the instruction at `PC`, which is
  abandoned (R340, U26; log 17). -/
  | resetDuringInstruction
deriving DecidableEq, Repr

/-- A memory as data: the bytes it lists, each at its address. Its canonical form is `Memory.wf` (log 1, log 11). -/
abbrev Memory := List Host.Cell

/-- The complete state of one VDB (R48), its parameters (R7, R43), and four fields of the model's own. -/
structure State where
  /-- `R[1]` to `R[15]`, `R[k]` at index `k - 1`: `R[0]` has no storage (R31). -/
  r : Vector Word 15
  /-- `F[0]` to `F[15]` (R33). -/
  f : Vector Word 16
  /-- `P[0]` to `P[7]` (R32). -/
  p : Vector DWord 8
  /-- `PC`: command-memory word address of the next instruction (R35). -/
  pc : Word
  /-- `STATUS.RUN` (R39). -/
  run : Bool
  /-- `STATUS.FAULT` (R39). -/
  faulted : Bool
  /-- `STATUS.HALTED` (R39). -/
  halted : Bool
  /-- `CAUSE[7:0]` (R41). -/
  cause : BitVec 8
  /-- `FPC` (R41). -/
  fpc : Word
  /-- `FINFO` (R41). -/
  finfo : Word
  /-- `IRQEN`: bit 0 `HALT_IE`, bit 1 `FAULT_IE` (R42). -/
  irqen : BitVec 2
  /-- `IRQSTAT`: bit 0 `HALT_IP`, bit 1 `FAULT_IP` (R42). -/
  irqstat : BitVec 2
  /-- Command memory (R70): byte `4 * j + k` is byte `k` of word `j`, bits 7:0 first (R72; log 11). -/
  imem : Memory
  /-- Data memory (R70), laid out as `imem`. -/
  dmem : Memory
  /-- The OPEN parameters of R7, among them the constants of `CFG_IMEM`, `CFG_DMEM` and `CFG_FLOOR` (R43). -/
  cfg : Params
  /-- The model's own: the pending `CTRL.STOP` of R130, as the writes of `CTRL`, in the order the host made them,
  whose STOP waits for the instruction in progress (R38, R345; log 9, log 22). -/
  pendingCtrl : List Word
  /-- The model's own: the turns still to come (log 4). -/
  turns : List Turn
  /-- The model's own: the word that the last host read returned (log 5). -/
  hostData : Word
  /-- The model's own: how many free words have been used (log 6). -/
  freeIndex : Nat
deriving DecidableEq, Repr

/-- The state that power-up leaves (R340), with the parameters of an implementation and the unspecified contents
of its memories as arguments. -/
def State.resetWith (cfg : Params) (imem dmem : Memory) : State :=
  { r := Vector.replicate 15 0#32
    f := Vector.replicate 16 0#32
    p := Vector.replicate 8 0#64
    pc := 0#32
    run := false
    faulted := false
    halted := false
    cause := 0#8
    fpc := 0#32
    finfo := 0#32
    irqen := 0#2
    irqstat := 0#2
    imem := imem
    dmem := dmem
    cfg := cfg
    pendingCtrl := []
    turns := []
    hostData := 0#32
    freeIndex := 0 }

/-- The machine right after reset (R340): every register, `PC` and CSR 0, stopped, memories with nothing listed.
The parameter values and what an unlisted byte reads as are the model's choices (log 1, log 2). -/
def State.reset : State := State.resetWith Params.testInstance [] []

end Sys2Proof.Machine
end

