-- ==== Sys2Proof/Machine/Ops.lean ====
section
/-! DEFINITION. The named operations over memory and registers, and taking a fault (spec/00_scope.md R11 to R13,
spec/20_memory.md R70 to R81, spec/60_exceptions.md R300 to R304). Every meaning is written over these. -/

namespace Sys2Proof.Machine

/-! ## Bytes and words of a memory -/

/-- The byte at an address: the listed one, or what an unlisted byte reads as (log 1). -/
def memByte : Memory → Nat → Byte
  | [], _ => unlistedByte
  | (k, v) :: rest, a => if a = k then v else memByte rest a

/-- A memory without its entries at address `a`. -/
def memErase (m : Memory) (a : Nat) : Memory := m.filter (fun cell => cell.1 != a)

/-- Puts a cell before the first entry at a higher address. -/
def memInsert (a : Nat) (v : Byte) : Memory → Memory
  | [] => [(a, v)]
  | cell :: rest => if a < cell.1 then (a, v) :: cell :: rest else cell :: memInsert a v rest

/-- Writes one byte, keeping the canonical form: a byte equal to what an unlisted one reads as is not listed. -/
def memSetByte (m : Memory) (a : Nat) (v : Byte) : Memory :=
  if v = unlistedByte then memErase m a else memInsert a v (memErase m a)

/-- The canonical form of a memory: addresses strictly rising, no entry equal to an unlisted byte. -/
def Memory.wf (m : Memory) : Bool :=
  decide (m.Pairwise (fun x y => x.1 < y.1)) && m.all (fun cell => cell.2 != unlistedByte)

/-- No byte is listed at or above `words` 32-bit words: the memory holds only words that exist (R70). -/
def Memory.within (m : Memory) (words : Nat) : Bool := m.all (fun cell => decide (cell.1 < 4 * words))

/-- The 32-bit word at a word address, bits 7:0 at the lowest byte (R70, R72). -/
def memWord (m : Memory) (j : Nat) : Word :=
  bytesWord (memByte m (4 * j)) (memByte m (4 * j + 1)) (memByte m (4 * j + 2)) (memByte m (4 * j + 3))

/-- Writes the 32-bit word at a word address (R70, R72). -/
def memSetWord (m : Memory) (j : Nat) (w : Word) : Memory :=
  memSetByte (memSetByte (memSetByte (memSetByte m (4 * j) (w.extractLsb' 0 8)) (4 * j + 1) (w.extractLsb' 8 8))
    (4 * j + 2) (w.extractLsb' 16 8)) (4 * j + 3) (w.extractLsb' 24 8)

/-- Writes `g 0`, `g 1`, ..., `g (k - 1)` to the words from `t` up, in increasing index order (R81). -/
def fillWords (g : Nat → Word) (t : Nat) : Nat → Memory → Memory
  | 0, m => m
  | k + 1, m => memSetWord (fillWords g t k m) (t + k) (g k)

/-- `IMEM[j]` (R12). -/
def State.imemWord (s : State) (j : Nat) : Word := memWord s.imem j

/-- `IMEM[j] <- w`, a host write (R70). -/
def State.setImemWord (s : State) (j : Nat) (w : Word) : State := { s with imem := memSetWord s.imem j w }

/-- `MemRead(j, 1)` (R12). -/
def State.dmemWord (s : State) (j : Nat) : Word := memWord s.dmem j

/-- `MemWrite(j, 1, w)` (R12). -/
def State.setDmemWord (s : State) (j : Nat) (w : Word) : State := { s with dmem := memSetWord s.dmem j w }

/-- `MemRead(j, 2)`: the word at `j` in the low 32 bits (R12, R72). -/
def State.dmemPair (s : State) (j : Nat) : DWord := s.dmemWord (j + 1) ++ s.dmemWord j

/-- `MemWrite(j, 2, v)`: the low 32 bits to `j`, the high 32 bits to `j + 1` (R12, R72). -/
def State.setDmemPair (s : State) (j : Nat) (v : DWord) : State :=
  (s.setDmemWord j (v.extractLsb' 0 32)).setDmemWord (j + 1) (v.extractLsb' 32 32)

/-- One byte of data memory, at byte `a % 4` of word `a / 4` (R72). -/
def State.dmemByte (s : State) (a : Nat) : Byte := memByte s.dmem a

/-- One byte of command memory, at byte `a % 4` of word `a / 4` (R72). -/
def State.imemByte (s : State) (a : Nat) : Byte := memByte s.imem a

/-! ## Registers (R11, R30 to R35) -/

/-- `R[a]`: `R[0]` always reads as 0 (R31). -/
def State.readR (s : State) (a : RReg) : Word :=
  if a = 0#4 then 0#32 else s.r[a.toNat - 1]'(by have := a.isLt; omega)

/-- `R[a] <- v`: a write to `R[0]` is discarded (R31). -/
def State.writeR (s : State) (a : RReg) (v : Word) : State :=
  { s with r := if a = 0#4 then s.r else s.r.setIfInBounds (a.toNat - 1) v }

/-- `F[a]` (R33). -/
def State.readF (s : State) (a : FReg) : Word := s.f[a.toNat]'(a.isLt)

/-- `F[a] <- v` (R33). -/
def State.writeF (s : State) (a : FReg) (v : Word) : State := { s with f := s.f.setIfInBounds a.toNat v }

/-- `P[a]` (R32). -/
def State.readP (s : State) (a : PReg) : DWord := s.p[a.toNat]'(a.isLt)

/-- `P[a] <- v` (R32). -/
def State.writeP (s : State) (a : PReg) (v : DWord) : State := { s with p := s.p.setIfInBounds a.toNat v }

/-- `PC <- t` (R13). -/
def State.goTo (s : State) (t : Word) : State := { s with pc := t }

/-- `PC <- trunc_32(pc + 1)`, what an instruction does that sets no other `PC` (R13). -/
def State.advance (s : State) : State := s.goTo (s.pc + 1#32)

/-- Sets `IRQSTAT.HALT_IP`, bit 0 (R42). -/
def setHaltPending (irqstat : BitVec 2) : BitVec 2 := irqstat ||| 1#2

/-- What `HALT` does beside moving `PC`: the sequencer stops and the halt event is recorded (R134). -/
def haltSequencer (s : State) : State :=
  { s with run := false, halted := true, irqstat := setHaltPending s.irqstat }

/-! ## Faults (R300 to R304) -/

/-- The fault causes of R300. -/
inductive Cause where
  | illegalInstr
  | fetchRange
  | dmemRange
  | fxRange
  | rampSign
  | rampDomain
  | waveDesc
  | waveIndex
  | sampleRange
  | loopRange
deriving DecidableEq, Repr

/-- The code that `CAUSE[7:0]` records (R300). -/
def causeCode : Cause → BitVec 8
  | .illegalInstr => 1
  | .fetchRange => 2
  | .dmemRange => 3
  | .fxRange => 4
  | .rampSign => 5
  | .rampDomain => 6
  | .waveDesc => 7
  | .waveIndex => 8
  | .sampleRange => 9
  | .loopRange => 10

/-- What `raise Fault(cause, info)` names (R13). -/
structure FaultRecord where
  cause : Cause
  info : Word
deriving DecidableEq, Repr

/-- Sets `IRQSTAT.FAULT_IP`, bit 1 (R42). -/
def setFaultPending (irqstat : BitVec 2) : BitVec 2 := irqstat ||| 2#2

/-- The fault action of R303: the sequencer stops, the record is written, nothing else changes. `PC` keeps the
address of the faulting instruction. -/
def takeFault (record : FaultRecord) (s : State) : State :=
  { s with
    run := false
    faulted := true
    cause := causeCode record.cause
    fpc := s.pc
    finfo := record.info
    irqstat := setFaultPending s.irqstat }

/-- The way back from a fault, `CTRL.CLRFAULT` (R38, R304): it clears the record when the sequencer is stopped,
and leaves `IRQSTAT` and `PC` alone. -/
def clearFault (s : State) : State :=
  if s.run then s else { s with faulted := false, cause := 0#8, fpc := 0#32, finfo := 0#32 }

/-- `CTRL.START`: ignored unless the sequencer is stopped with no fault recorded (R38). -/
def startSequencer (s : State) : State :=
  if !s.run && !s.faulted then { s with run := true, halted := false } else s

/-- What `CTRL.STOP` does once the instruction in progress is finished: `RUN` falls, `HALTED` stays (R38). -/
def stopSequencer (s : State) : State := { s with run := false }

/-- The outcome of every instruction. -/
abbrev Result := Host.Outcome State Fault Refusal

/-- One outcome after another: the second only where the first answers a next state. -/
def andThen (first : Result) (second : State → Result) : Result :=
  match first with
  | .next t => second t
  | .fault reason => .fault reason
  | .refused reason => .refused reason

/-- The first fault that a list of checks, in the order of an instruction's rule, raises (R302). -/
def firstFault : List (Option FaultRecord) → Option FaultRecord
  | [] => none
  | some record :: _ => some record
  | none :: rest => firstFault rest

/-- An instruction whose checks all precede its effect (R132): the first check that fails takes its fault in
place of the effect (R303); if none fails, the effect happens whole. -/
def attempt (checks : List (Option FaultRecord)) (effect : State → State) (s : State) : Result :=
  match firstFault checks with
  | some record => .next (takeFault record s)
  | none => .next (effect s)

/-- A check: raises `Fault(cause, info)` when `bad` holds. -/
def raiseIf (bad : Bool) (cause : Cause) (info : Word) : Option FaultRecord :=
  if bad then some ⟨cause, info⟩ else none

/-- The range check of R76 on the `count` data words from `base`, in mathematical integers; `info` is the lowest
word address that is out of range. -/
def rangeCheck (s : State) (base count : Nat) : Option FaultRecord :=
  raiseIf (decide (s.cfg.dmemWords < base + count)) .dmemRange (BitVec.ofNat 32 (max base s.cfg.dmemWords))

end Sys2Proof.Machine
end

