-- ==== Sys2Proof/Machine/Operands.lean ====
section
/-! DEFINITION. Operand forms (spec/30_encoding.md R103, R104): immediates, effective addresses, branch targets,
and an integer register read as an unsigned address or count or as a signed number (spec/00_scope.md R10). -/

namespace Sys2Proof.Machine

/-- The 32-bit pattern of a signed immediate, `sext_32(imm)` (R103). -/
def signedImm (imm : Int) : Word := BitVec.ofInt 32 imm

/-- The 32-bit pattern of the unsigned immediate of `ORI`, `zext_32(imm18)` (R103). -/
def unsignedImm (imm : Nat) : Word := BitVec.ofNat 32 imm

/-- The 32-bit pattern of the immediate of `LUI`: imm22 in bits 31:10, zero in bits 9:0 (R103). -/
def upperImm (imm : Nat) : Word := BitVec.ofNat 22 imm ++ 0#10

/-- The effective address `trunc_32(u(R[b]) + s(sext_32(imm18)))`, a word address (R104, R149). -/
def effAddr (s : State) (b : RReg) (imm : Int) : Nat := (s.readR b + signedImm imm).toNat

/-- The target of a branch or jump, `trunc_32(pc + s(sext_32(imm22)))` (R103, R146). -/
def branchTarget (s : State) (offset : Int) : Word := s.pc + signedImm offset

/-- `u(R[a])`: an integer register as an address or a count (R10). -/
def State.unsignedR (s : State) (a : RReg) : Nat := (s.readR a).toNat

/-- `s(R[a])`: an integer register as a signed number (R10). -/
def State.signedR (s : State) (a : RReg) : Int := (s.readR a).toInt

/-- `s(P[a])`: a phase register as a signed number in units of 2^-32 (R32). -/
def State.signedP (s : State) (a : PReg) : Int := (s.readP a).toInt

end Sys2Proof.Machine
end

