-- ==== Sys2Proof/Machine/Flags.lean ====
section
/-! DEFINITION. There are no condition codes and no float flags (spec/10_state.md R34): a comparison writes 0 or 1
into an integer register. The status bits of the machine itself are those of `STATUS` and the interrupt level
(R39, R42, R43). -/

namespace Sys2Proof.Machine

/-- The result of a comparison: 1 when it holds, 0 when not (R34). -/
def truthWord (holds : Bool) : Word := if holds then 1#32 else 0#32

/-- The interrupt output `IRQ`, a level: some pending bit whose enable bit is 1 (R43). -/
def irqLevel (s : State) : Bool := (s.irqstat &&& s.irqen) != 0#2

/-- The `STATUS` register: RUN, FAULT, HALTED, IRQ in bits 0 to 3, the rest 0 (R39). -/
def statusWord (s : State) : Word :=
  0#28 ++ BitVec.ofBool (irqLevel s) ++ BitVec.ofBool s.halted ++ BitVec.ofBool s.faulted ++ BitVec.ofBool s.run

end Sys2Proof.Machine
end

