-- ==== Sys2Proof/Machine/Control.lean ====
section
/-! DEFINITION. Control instructions and control transfer (spec/40_sequencer.md R133, R134, R146 to R148). -/

namespace Sys2Proof.Machine

/-- `NOP` (R133). -/
def execNop (s : State) : Result := .next s.advance

/-- `HALT` (R134). -/
def execHalt (s : State) : Result := .next (haltSequencer s).advance

/-- `J target` (R146). -/
def execJ (offset : Int) (s : State) : Result := .next (s.goTo (branchTarget s offset))

/-- `BEQZ ra, target` (R147). -/
def execBeqz (a : RReg) (offset : Int) (s : State) : Result :=
  .next (if s.readR a = 0#32 then s.goTo (branchTarget s offset) else s.advance)

/-- `BNEZ ra, target` (R148). -/
def execBnez (a : RReg) (offset : Int) (s : State) : Result :=
  .next (if s.readR a ≠ 0#32 then s.goTo (branchTarget s offset) else s.advance)

end Sys2Proof.Machine
end

