-- ==== Sys2Proof/Machine/Float.lean ====
section
/-! DEFINITION. Binary32 arithmetic (spec/00_scope.md R14 to R18), computed exactly on integers and rounded once:
a finite magnitude is a natural number of units of 2^-149, the smallest subnormal. What R16 leaves to IEEE 754
is in log 13. -/

namespace Sys2Proof.Machine

/-! ## Format (R14, R17) -/

/-- Sign bit, bit 31. -/
def fSign (x : Word) : Bool := x.msb

/-- The pattern below the sign bit, bits 30:0: exponent field and fraction. -/
def fMagBits (x : Word) : Nat := (x.extractLsb' 0 31).toNat

/-- Exponent field, bits 30:23. -/
def fExpField (x : Word) : Nat := (x.extractLsb' 23 8).toNat

/-- Fraction field, bits 22:0. -/
def fFracField (x : Word) : Nat := (x.extractLsb' 0 23).toNat

/-- Exponent field 0xFF with nonzero fraction (R17). -/
def isNaN (x : Word) : Bool := fExpField x == 255 && fFracField x != 0

/-- Exponent field 0xFF with zero fraction (R17). -/
def isInf (x : Word) : Bool := fExpField x == 255 && fFracField x == 0

/-- The value of a finite pattern without its sign bit, in units of 2^-149: subnormal when the exponent field
is 0, else with the implicit leading 1 (R14). -/
def patternUnits (bits : Nat) : Nat :=
  if bits / 2 ^ 23 = 0 then bits % 2 ^ 23 else (2 ^ 23 + bits % 2 ^ 23) * 2 ^ (bits / 2 ^ 23 - 1)

/-- Magnitude of a finite binary32 value in units of 2^-149. -/
def fUnits (x : Word) : Nat := patternUnits (fMagBits x)

/-- Value of a finite binary32 pattern in units of 2^-149. -/
def fValue (x : Word) : Int := if fSign x then -(fUnits x : Int) else fUnits x

/-- A pattern from its sign and its bits 30:0. -/
def fPack (negative : Bool) (bits : Nat) : Word := BitVec.ofBool negative ++ BitVec.ofNat 31 bits

/-- The canonical NaN (R16). -/
def canonicalNaN : Word := 0x7FC00000#32

/-- The bits 30:0 of an infinity. -/
def infBits : Nat := 0x7F800000

/-- Infinity of a sign. -/
def fInf (negative : Bool) : Word := fPack negative infBits

/-- The value with its sign flipped, `y'` of R16. -/
def fNegate (y : Word) : Word := y ^^^ 0x80000000#32

/-! ## Rounding (R15) -/

/-- `num / den` rounded to the nearest integer, ties to even. -/
def divNearest (num den : Nat) : Nat :=
  if 2 * (num % den) < den then num / den
  else if den < 2 * (num % den) then num / den + 1
  else num / den + num / den % 2

/-- The binary exponent of the spacing of binary32 values at the magnitude `num / den` units: 0 below 2^24 units
(gradual underflow), then one more for each doubling. -/
def spacingExp (num den : Nat) : Nat := (num / den).log2 - 23

/-- Bits 30:0 of the magnitude `num / den` units rounded to nearest, ties to even; a magnitude that rounds to
2^128 or more becomes infinity (R15). Significand and exponent field add up to the pattern, carries included. -/
def nearestBits (num den : Nat) : Nat :=
  min (spacingExp num den * 2 ^ 23 + divNearest num (den * 2 ^ spacingExp num den)) infBits

/-- Bits 30:0 of the magnitude `num / den` units rounded toward zero, never to infinity (R15). -/
def truncatedBits (num den : Nat) : Nat :=
  min (spacingExp num den * 2 ^ 23 + num / (den * 2 ^ spacingExp num den)) (infBits - 1)

/-- `RN32` of the real `± num / den` units of 2^-149 (R15). -/
def roundNearest (negative : Bool) (num den : Nat) : Word := fPack negative (nearestBits num den)

/-- `RZ32` of the real `± num / den` units of 2^-149 (R15). -/
def roundToZero (negative : Bool) (num den : Nat) : Word := fPack negative (truncatedBits num den)

/-- `RN32(i)` of an integer (R15, R17). -/
def intToFloat (i : Int) : Word := roundNearest (decide (i < 0)) (i.natAbs * 2 ^ 149) 1

/-! ## The four primitives (R16) -/

/-- `fadd(x, y)`. -/
def fadd (x y : Word) : Word :=
  if isNaN x || isNaN y then canonicalNaN
  else if isInf x then (if isInf y && fSign x != fSign y then canonicalNaN else x)
  else if isInf y then y
  else if fValue x + fValue y = 0 then fPack (fSign x && fSign y) 0
  else roundNearest (decide (fValue x + fValue y < 0)) (fValue x + fValue y).natAbs 1

/-- `fsub(x, y)`: `fadd` of `x` and of `y` with its sign flipped. -/
def fsub (x y : Word) : Word := fadd x (fNegate y)

/-- `fmul(x, y)`. -/
def fmul (x y : Word) : Word :=
  if isNaN x || isNaN y then canonicalNaN
  else if isInf x then (if fUnits y == 0 then canonicalNaN else fInf (fSign x != fSign y))
  else if isInf y then (if fUnits x == 0 then canonicalNaN else fInf (fSign x != fSign y))
  else roundNearest (fSign x != fSign y) (fUnits x * fUnits y) (2 ^ 149)

/-- `fdiv(x, y)`. -/
def fdiv (x y : Word) : Word :=
  if isNaN x || isNaN y then canonicalNaN
  else if isInf x then (if isInf y then canonicalNaN else fInf (fSign x != fSign y))
  else if isInf y then fPack (fSign x != fSign y) 0
  else if fUnits y = 0 then (if fUnits x = 0 then canonicalNaN else fInf (fSign x != fSign y))
  else roundNearest (fSign x != fSign y) (fUnits x * 2 ^ 149) (fUnits y)

/-! ## Comparison (R17) -/

/-- A key that orders the values that are no NaN as IEEE 754 orders them: -0 and +0 share key 0, infinities lie
outside every finite value. -/
def orderKey (x : Word) : Int := if fSign x then -(fMagBits x : Int) else fMagBits x

/-- `x ≤ y`, false when either is a NaN. -/
def fle (x y : Word) : Bool := !isNaN x && !isNaN y && decide (orderKey x ≤ orderKey y)

/-- `x < y`, false when either is a NaN. -/
def flt (x y : Word) : Bool := !isNaN x && !isNaN y && decide (orderKey x < orderKey y)

/-- `x ≥ y`, false when either is a NaN. -/
def fge (x y : Word) : Bool := fle y x

/-- `|x|`: `x` with sign bit 0 (R17). -/
def fabs (x : Word) : Word := 0#1 ++ x.extractLsb' 0 31

/-- `floor` of a finite value that is not negative (R10). -/
def floorNonneg (x : Word) : Nat := fUnits x / 2 ^ 149

/-! ## Interpolation (R252) -/

/-- `lerp(u, v, f) = fadd(u, fmul(f, fsub(v, u)))`, in that order (R252). -/
def lerp (u v f : Word) : Word := fadd u (fmul f (fsub v u))

end Sys2Proof.Machine
end

