-- ==== Sys2Proof/Machine/Ramp.lean ====
section
/-! DEFINITION. Parameter ramp generator instructions (spec/42_ramps.md R200 to R206). -/

namespace Sys2Proof.Machine

/-- A vector instruction with count 0 does nothing but move `PC`: no check, no read, no write (R80). -/
def vectorOp (count : Nat) (checks : List (Option FaultRecord)) (effect : State → State) (s : State) : Result :=
  if count = 0 then .next s.advance else attempt checks effect s

/-- Writes the elements `g 0` to `g (n - 2)` and then `last`, from word `t` up (R201, R205). -/
def rampMemory (g : Nat → Word) (last : Word) (t n : Nat) (m : Memory) : Memory :=
  memSetWord (fillWords g t (n - 1) m) (t + (n - 1)) last

/-! ## Additive ramp -/

/-- Element `i` below the last: `fadd(A, fdiv(fmul(RN32(i + 1), D), N))` with `D = fsub(B, A)` and `N = RN32(n)`
(R201). -/
def addRampElement (first final : Word) (n i : Nat) : Word :=
  fadd first (fdiv (fmul (intToFloat (i + 1)) (fsub final first)) (intToFloat n))

/-- `VRAMPA ra, fb, fc, rd` (R200, R201). -/
def execVrampa (a : RReg) (b c : FReg) (d : RReg) (s : State) : Result :=
  vectorOp (s.unsignedR d) [rangeCheck s (s.unsignedR a) (s.unsignedR d)]
    (fun s =>
      { s with
        dmem := rampMemory (addRampElement (s.readF b) (s.readF c) (s.unsignedR d)) (s.readF c)
          (s.unsignedR a) (s.unsignedR d) s.dmem }.advance) s

/-! ## Multiplicative ramp -/

/-- `clampf(x)`: `x` when `|x| ≥ P_RAMP_FLOOR`, else the floor with the sign bit of `x` (R203). -/
def clampToFloor (floor x : Word) : Word :=
  if fge (fabs x) floor then x else fPack (fSign x) (fMagBits floor)

/-- Whether the positive value of `units` units of 2^-149 is at most the exact root `(b / a)^(1/n)`, for
magnitudes `a`, `b` in units: `units^n * a ≤ b * 2^(149 n)` (R204). -/
def atMostRoot (a b n units : Nat) : Bool := decide (units ^ n * a ≤ b * 2 ^ (149 * n))

/-- The greatest number that a downward-closed test accepts, found bit by bit from the top. -/
def searchBits (test : Nat → Bool) : Nat → Nat → Nat
  | 0, acc => acc
  | k + 1, acc => searchBits test k (if test (acc + 2 ^ k) then acc + 2 ^ k else acc)

/-- Bits 30:0 of `RD32` of the exact root: the greatest finite magnitude at most the root (R204). -/
def rootDownBits (a b n : Nat) : Nat :=
  searchBits (fun bits => decide (bits < infBits) && atMostRoot a b n (patternUnits bits)) 31 0

/-- Whether the root is exactly the magnitude of `bits` (R204: then it is the ratio). -/
def rootIsExact (a b n bits : Nat) : Bool := decide (patternUnits bits ^ n * a = b * 2 ^ (149 * n))

/-- Whether the nearest rounding takes the magnitude above `bits`: the root lies above the midpoint of the two,
or on it with `bits` odd (R15, R204). -/
def rootNearestUp (a b n bits : Nat) : Bool :=
  let twiceMid := (patternUnits bits + patternUnits (bits + 1)) ^ n * a
  let twiceRoot := b * 2 ^ (150 * n)
  decide (twiceMid < twiceRoot) || (decide (twiceMid = twiceRoot) && bits % 2 == 1)

/-- `P_RATIO(a, b, n)`: a faithful rounding of the exact root, chosen by the parameter of R204. -/
def rampRatio (choice : RatioRounding) (a b : Word) (n : Nat) : Word :=
  let down := rootDownBits (fUnits a) (fUnits b) n
  let up :=
    match choice with
    | .nearest => rootNearestUp (fUnits a) (fUnits b) n down
    | .implementation => Config.ratioRoundsUp a b n
  fPack false (if rootIsExact (fUnits a) (fUnits b) n down then down else if up then down + 1 else down)

/-- The running value `x` of R205 after `k` multiplications by `r`. -/
def mulRampValue (first r : Word) : Nat → Word
  | 0 => first
  | k + 1 => fmul (mulRampValue first r k) r

/-- The words that `VRAMPM` writes, from its clamped endpoints (R205). -/
def mulRampMemory (choice : RatioRounding) (first final : Word) (t n : Nat) (m : Memory) : Memory :=
  rampMemory (fun i => mulRampValue first (rampRatio choice first final n) (i + 1)) final t n m

/-- An endpoint whose logarithm has no meaning (R205). -/
def rampUndefined (x : Word) : Bool := isNaN x || isInf x

/-- `VRAMPM ra, fb, fc, rd` (R200, R203 to R205). -/
def execVrampm (a : RReg) (b c : FReg) (d : RReg) (s : State) : Result :=
  vectorOp (s.unsignedR d)
    [rangeCheck s (s.unsignedR a) (s.unsignedR d),
     raiseIf (rampUndefined (s.readF b) || rampUndefined (s.readF c)) .rampDomain 0#32,
     raiseIf (fSign (s.readF b) != fSign (s.readF c)) .rampSign 0#32]
    (fun s =>
      { s with
        dmem := mulRampMemory s.cfg.ratio (clampToFloor s.cfg.rampFloor (s.readF b))
          (clampToFloor s.cfg.rampFloor (s.readF c)) (s.unsignedR a) (s.unsignedR d) s.dmem }.advance) s

end Sys2Proof.Machine
end

