-- ==== Sys2Proof/Machine/Iir.lean ====
section
/-! DEFINITION. IIR filter instructions (spec/43_iir.md R220 to R230): one sequential recurrence per kernel (R231),
run over memory by one shared loop. -/

namespace Sys2Proof.Machine

/-! ## Descriptors (R220) -/

/-- Coefficients of a second-order descriptor: `b0 b1 b2 a1 a2` at +0 to +4 (R220). -/
structure Biquad where
  b0 : Word
  b1 : Word
  b2 : Word
  a1 : Word
  a2 : Word
deriving DecidableEq, Repr

/-- History of the DF-I kernel: `x1 x2 y1 y2` at +5 to +8, newest first (R220). -/
structure HistoryI where
  x1 : Word
  x2 : Word
  y1 : Word
  y2 : Word
deriving DecidableEq, Repr

/-- History of the DF-II kernel: `w1 w2` at +5, +6, newest first (R220). -/
structure HistoryII where
  w1 : Word
  w2 : Word
deriving DecidableEq, Repr

/-- Coefficients of the first-order all-pole descriptor: `b0 a1` at +0, +1 (R220). -/
structure OnePole where
  b0 : Word
  a1 : Word
deriving DecidableEq, Repr

/-- Latches the coefficients of a second-order descriptor at word `s` (R220, R221). -/
def loadBiquad (m : Memory) (s : Nat) : Biquad :=
  ⟨memWord m s, memWord m (s + 1), memWord m (s + 2), memWord m (s + 3), memWord m (s + 4)⟩

/-- Latches the DF-I history (R220, R221). -/
def loadHistoryI (m : Memory) (s : Nat) : HistoryI :=
  ⟨memWord m (s + 5), memWord m (s + 6), memWord m (s + 7), memWord m (s + 8)⟩

/-- Latches the DF-II history; words +7 and +8 are not read (R220, R221). -/
def loadHistoryII (m : Memory) (s : Nat) : HistoryII := ⟨memWord m (s + 5), memWord m (s + 6)⟩

/-- Latches the coefficients of an all-pole descriptor (R220, R221). -/
def loadOnePole (m : Memory) (s : Nat) : OnePole := ⟨memWord m s, memWord m (s + 1)⟩

/-- Writes the DF-I history back (R221). -/
def saveHistoryI (s : Nat) (h : HistoryI) (m : Memory) : Memory :=
  memSetWord (memSetWord (memSetWord (memSetWord m (s + 5) h.x1) (s + 6) h.x2) (s + 7) h.y1) (s + 8) h.y2

/-- Writes the DF-II history back; words +7 and +8 are not written (R220, R221). -/
def saveHistoryII (s : Nat) (h : HistoryII) (m : Memory) : Memory :=
  memSetWord (memSetWord m (s + 5) h.w1) (s + 6) h.w2

/-- Writes the all-pole history back (R221). -/
def saveHistoryAP (s : Nat) (y1 : Word) (m : Memory) : Memory := memSetWord m (s + 2) y1

/-! ## Kernel steps (R222 to R224): input and history to output and history -/

/-- DF-I step (R222). -/
def stepI (k : Biquad) (xi : Word) (h : HistoryI) : Word × HistoryI :=
  let t := fadd (fmul k.b0 xi) (fmul k.b1 h.x1)
  let t := fadd t (fmul k.b2 h.x2)
  let t := fsub t (fmul k.a1 h.y1)
  let yi := fsub t (fmul k.a2 h.y2)
  (yi, { x1 := xi, x2 := h.x1, y1 := yi, y2 := h.y1 })

/-- DF-II step (R223). -/
def stepII (k : Biquad) (xi : Word) (h : HistoryII) : Word × HistoryII :=
  let w := fsub xi (fmul k.a1 h.w1)
  let w := fsub w (fmul k.a2 h.w2)
  let t := fadd (fmul k.b0 w) (fmul k.b1 h.w1)
  let yi := fadd t (fmul k.b2 h.w2)
  (yi, { w1 := w, w2 := h.w1 })

/-- First-order all-pole step (R224): the history is the one output. -/
def stepAP (k : OnePole) (xi : Word) (y1 : Word) : Word × Word :=
  let yi := fsub (fmul k.b0 xi) (fmul k.a1 y1)
  (yi, yi)

/-! ## Common execution (R221) -/

/-- What an element step writes: the output itself, or in MACC mode the existing target word plus the output
times the gain (R221). -/
def targetWord (gain : Option Word) (o yi : Word) : Word :=
  match gain with
  | none => yi
  | some g => fadd o (fmul g yi)

/-- Element steps 0 to `k - 1` from source `xs` to target `ys`, each reading memory as it stands before it writes
(R81, R221). `kernel` holds the latched coefficients; the history is threaded through. -/
def filterLoop {H : Type} (kernel : Word → H → Word × H) (gain : Option Word) (xs ys : Nat) :
    Nat → Memory × H → Memory × H
  | 0, run => run
  | k + 1, run =>
    let before := filterLoop kernel gain xs ys k run
    let out := kernel (memWord before.1 (xs + k)) before.2
    (memSetWord before.1 (ys + k) (targetWord gain (memWord before.1 (ys + k)) out.1), out.2)

/-- The three region checks of R221, in their order: descriptor of `words` words, source, target. -/
def filterChecks (words : Nat) (a b c d : RReg) (s : State) : List (Option FaultRecord) :=
  [rangeCheck s (s.unsignedR a) words,
   rangeCheck s (s.unsignedR b) (s.unsignedR d),
   rangeCheck s (s.unsignedR c) (s.unsignedR d)]

/-- Data memory after a DF-I run of `n` elements with descriptor `q` (R221, R222). -/
def filterI (macc : Bool) (q xs ys n : Nat) (m : Memory) : Memory :=
  let done := filterLoop (stepI (loadBiquad m q)) (if macc then some (memWord m (q + 9)) else none) xs ys n
    (m, loadHistoryI m q)
  saveHistoryI q done.2 done.1

/-- Data memory after a DF-II run of `n` elements with descriptor `q` (R221, R223). -/
def filterII (macc : Bool) (q xs ys n : Nat) (m : Memory) : Memory :=
  let done := filterLoop (stepII (loadBiquad m q)) (if macc then some (memWord m (q + 9)) else none) xs ys n
    (m, loadHistoryII m q)
  saveHistoryII q done.2 done.1

/-- Data memory after an all-pole run of `n` elements with descriptor `q` (R221, R224). -/
def filterAP (macc : Bool) (q xs ys n : Nat) (m : Memory) : Memory :=
  let done := filterLoop (stepAP (loadOnePole m q)) (if macc then some (memWord m (q + 3)) else none) xs ys n
    (m, memWord m (q + 2))
  saveHistoryAP q done.2 done.1

/-- Applies a filter run to the regions that the four operand registers name (R221). -/
def runFilter (words : Nat) (filter : Nat → Nat → Nat → Nat → Memory → Memory) (a b c d : RReg) (s : State) :
    Result :=
  vectorOp (s.unsignedR d) (filterChecks words a b c d s)
    (fun s =>
      { s with
        dmem := filter (s.unsignedR a) (s.unsignedR b) (s.unsignedR c) (s.unsignedR d) s.dmem }.advance) s

/-! ## The six instructions (R225 to R230) -/

/-- `IIR2DI rs, rx, ry, rn` (R225). -/
def execIir2di (a b c d : RReg) (s : State) : Result := runFilter 10 (filterI false) a b c d s

/-- `IIR2DI.MACC rs, rx, ry, rn` (R226). -/
def execIir2diMacc (a b c d : RReg) (s : State) : Result := runFilter 10 (filterI true) a b c d s

/-- `IIR2DII rs, rx, ry, rn` (R227). -/
def execIir2dii (a b c d : RReg) (s : State) : Result := runFilter 10 (filterII false) a b c d s

/-- `IIR2DII.MACC rs, rx, ry, rn` (R228). -/
def execIir2diiMacc (a b c d : RReg) (s : State) : Result := runFilter 10 (filterII true) a b c d s

/-- `IIR1AP rs, rx, ry, rn` (R229). -/
def execIir1ap (a b c d : RReg) (s : State) : Result := runFilter 4 (filterAP false) a b c d s

/-- `IIR1AP.MACC rs, rx, ry, rn` (R230). -/
def execIir1apMacc (a b c d : RReg) (s : State) : Result := runFilter 4 (filterAP true) a b c d s

end Sys2Proof.Machine
end

