-- ==== Sys2Proof/Machine/Integer.lean ====
section
/-! DEFINITION. Integer immediates and ALU (spec/40_sequencer.md R135 to R145): modulo 2^32, no flags. -/

namespace Sys2Proof.Machine

/-- `R[a] <- v` and on to the next word: what every instruction of this file does. -/
def finishR (a : RReg) (v : Word) (s : State) : Result := .next (s.writeR a v).advance

/-- `LI ra, imm` (R135). -/
def execLi (a : RReg) (imm : Int) (s : State) : Result := finishR a (signedImm imm) s

/-- `LUI ra, imm` (R136). -/
def execLui (a : RReg) (imm : Nat) (s : State) : Result := finishR a (upperImm imm) s

/-- `ADDI ra, rb, imm` (R137). -/
def execAddi (a b : RReg) (imm : Int) (s : State) : Result := finishR a (s.readR b + signedImm imm) s

/-- `ORI ra, rb, imm` (R138). -/
def execOri (a b : RReg) (imm : Nat) (s : State) : Result := finishR a (s.readR b ||| unsignedImm imm) s

/-- `ADD ra, rb, rc` (R139). -/
def execAdd (a b c : RReg) (s : State) : Result := finishR a (s.readR b + s.readR c) s

/-- `SUB ra, rb, rc` (R140). -/
def execSub (a b c : RReg) (s : State) : Result := finishR a (s.readR b - s.readR c) s

/-- `AND ra, rb, rc` (R141). -/
def execAnd (a b c : RReg) (s : State) : Result := finishR a (s.readR b &&& s.readR c) s

/-- `OR ra, rb, rc` (R142). -/
def execOr (a b c : RReg) (s : State) : Result := finishR a (s.readR b ||| s.readR c) s

/-- `XOR ra, rb, rc` (R143). -/
def execXor (a b c : RReg) (s : State) : Result := finishR a (s.readR b ^^^ s.readR c) s

/-- `SLT ra, rb, rc`, signed (R144). -/
def execSlt (a b c : RReg) (s : State) : Result :=
  finishR a (truthWord (decide (s.signedR b < s.signedR c))) s

/-- `SLTU ra, rb, rc`, unsigned (R145). -/
def execSltu (a b c : RReg) (s : State) : Result :=
  finishR a (truthWord (decide (s.unsignedR b < s.unsignedR c))) s

end Sys2Proof.Machine
end

