-- ==== Sys2Proof/Machine/LoadStore.lean ====
section
/-! DEFINITION. Loads and stores (spec/40_sequencer.md R149 to R155): the range check first, then the access. -/

namespace Sys2Proof.Machine

/-- `LW ra, imm(rb)` (R150). With `a` = 0 the check happens and the value is discarded. -/
def execLw (a b : RReg) (imm : Int) (s : State) : Result :=
  attempt [rangeCheck s (effAddr s b imm) 1] (fun s => (s.writeR a (s.dmemWord (effAddr s b imm))).advance) s

/-- `SW ra, imm(rb)` (R151). -/
def execSw (a b : RReg) (imm : Int) (s : State) : Result :=
  attempt [rangeCheck s (effAddr s b imm) 1] (fun s => (s.setDmemWord (effAddr s b imm) (s.readR a)).advance) s

/-- `FLW fa, imm(rb)`, the bit pattern unchanged (R152). -/
def execFlw (a : FReg) (b : RReg) (imm : Int) (s : State) : Result :=
  attempt [rangeCheck s (effAddr s b imm) 1] (fun s => (s.writeF a (s.dmemWord (effAddr s b imm))).advance) s

/-- `FSW fa, imm(rb)`, the bit pattern unchanged (R153). -/
def execFsw (a : FReg) (b : RReg) (imm : Int) (s : State) : Result :=
  attempt [rangeCheck s (effAddr s b imm) 1] (fun s => (s.setDmemWord (effAddr s b imm) (s.readF a)).advance) s

/-- `PLW pa, imm(rb)`, two words at any word address (R154). -/
def execPlw (a : PReg) (b : RReg) (imm : Int) (s : State) : Result :=
  attempt [rangeCheck s (effAddr s b imm) 2] (fun s => (s.writeP a (s.dmemPair (effAddr s b imm))).advance) s

/-- `PSW pa, imm(rb)`, two words at any word address (R155). -/
def execPsw (a : PReg) (b : RReg) (imm : Int) (s : State) : Result :=
  attempt [rangeCheck s (effAddr s b imm) 2] (fun s => (s.setDmemPair (effAddr s b imm) (s.readP a)).advance) s

end Sys2Proof.Machine
end

