-- ==== Sys2Proof/Machine/Fixed.lean ====
section
/-! DEFINITION. Fixed64 values and their conversions (spec/10_state.md R32, spec/41_fixed64.md R169 to R172, R180):
a pattern is a two's-complement count of 2^-32. -/

namespace Sys2Proof.Machine

/-- `P[63:32]`, the pattern of the integer part `INT` (R32). -/
def intBits (p : DWord) : Word := p.extractLsb' 32 32

/-- `P[31:0]`, the fractional part `FRAC` (R32). -/
def fracBits (p : DWord) : Word := p.extractLsb' 0 32

/-- `fracf(p) = RZ32(FRAC(p) / 2^32)`: in units of 2^-149 that is FRAC times 2^117 (R180). -/
def fracFloat (p : DWord) : Word := roundToZero false ((fracBits p).toNat * 2 ^ 117) 1

/-- A signed integer position as a Fixed64 number, in units of 2^-32 (R175). -/
def scaledInt (i : Int) : Int := i * 2 ^ 32

/-- `trunc_64` of a mathematical integer (R10, R169). -/
def truncFixed (v : Int) : DWord := BitVec.ofInt 64 v

/-- Whether the real `num / den` lies in [-2^31, 2^31) (R170). -/
def fixedInRange (num : Int) (den : Nat) : Bool :=
  decide (-(2 ^ 31 * (den : Int)) ≤ num) && decide (num < 2 ^ 31 * (den : Int))

/-- `fx(x) = trunc_64(floor(x * 2^32))` of the real `x = num / den` (R170). -/
def fixedOfReal (num : Int) (den : Nat) : DWord := truncFixed (num * 2 ^ 32 / (den : Int))

/-- `FX_RANGE` for a binary32 operand: NaN, infinite, or outside [-2^31, 2^31); `info` is its pattern (R172). -/
def fixedCheck32 (x : Word) : Option FaultRecord :=
  raiseIf (isNaN x || isInf x || !fixedInRange (fValue x) (2 ^ 149)) .fxRange x

/-- `fx` of a finite binary32 value (R170, R172). -/
def fixedOf32 (x : Word) : DWord := fixedOfReal (fValue x) (2 ^ 149)

/-! ## Binary64, the source operand of `PLDD` (R171) -/

/-- Exponent field of a binary64, bits 62:52. -/
def dExpField (d : DWord) : Nat := (d.extractLsb' 52 11).toNat

/-- Fraction field of a binary64, bits 51:0. -/
def dFracField (d : DWord) : Nat := (d.extractLsb' 0 52).toNat

/-- NaN or infinite: exponent field 0x7FF. -/
def dNotFinite (d : DWord) : Bool := dExpField d == 2047

/-- Magnitude of a finite binary64 in units of 2^-1074, its smallest subnormal. -/
def dUnits (d : DWord) : Nat :=
  if dExpField d = 0 then dFracField d else (2 ^ 52 + dFracField d) * 2 ^ (dExpField d - 1)

/-- Value of a finite binary64 in units of 2^-1074. -/
def dValue (d : DWord) : Int := if d.msb then -(dUnits d : Int) else dUnits d

/-- `FX_RANGE` for a binary64 operand; `info` is its high word (R171). -/
def fixedCheck64 (d : DWord) : Option FaultRecord :=
  raiseIf (dNotFinite d || !fixedInRange (dValue d) (2 ^ 1074)) .fxRange (d.extractLsb' 32 32)

/-- `fx` of a finite binary64 value (R170, R171). -/
def fixedOf64 (d : DWord) : DWord := fixedOfReal (dValue d) (2 ^ 1074)

/-! ## Loop arithmetic -/

/-- The wrapped phase of R177 for loop `[S, E)`: a phase at or past `E` goes to `S` plus its overshoot modulo the
loop length; a phase below `E` is unchanged. -/
def wrapPhase (v s e : Int) : Int :=
  if scaledInt e ≤ v then scaledInt s + (v - scaledInt e) % scaledInt (e - s) else v

/-- `{P[63:32] & mask, P[31:0]}` (R176). -/
def maskPhase (p : DWord) (mask : Word) : DWord := (intBits p &&& mask) ++ fracBits p

/-- The mirror image `2 * B * 2^32 - s(P)` of a phase about a boundary `B` (R178). -/
def mirrorPhase (v b : Int) : Int := 2 * scaledInt b - v

end Sys2Proof.Machine
end

