-- ==== Sys2Proof/Machine/Phase.lean ====
section
/-! DEFINITION. Fixed64 phase accumulator instructions (spec/41_fixed64.md R169 to R182). -/

namespace Sys2Proof.Machine

/-- `P[a] <- v` and on to the next word. -/
def finishP (a : PReg) (v : DWord) (s : State) : Result := .next (s.writeP a v).advance

/-- `PLDD pa, imm(rb)`: a Fixed64 from a binary64 in memory (R171). -/
def execPldd (a : PReg) (b : RReg) (imm : Int) (s : State) : Result :=
  attempt [rangeCheck s (effAddr s b imm) 2, fixedCheck64 (s.dmemPair (effAddr s b imm))]
    (fun s => (s.writeP a (fixedOf64 (s.dmemPair (effAddr s b imm)))).advance) s

/-- `PFROMF pa, fb`: a Fixed64 from a binary32 register (R172). -/
def execPfromf (a : PReg) (b : FReg) (s : State) : Result :=
  attempt [fixedCheck32 (s.readF b)] (fun s => (s.writeP a (fixedOf32 (s.readF b))).advance) s

/-- `PADD pa, pb, pc` (R173). -/
def execPadd (a b c : PReg) (s : State) : Result := finishP a (s.readP b + s.readP c) s

/-- `PNEG pa, pb` (R174). -/
def execPneg (a b : PReg) (s : State) : Result := finishP a (0#64 - s.readP b) s

/-- `PSUBI pa, pb, rc` (R175). -/
def execPsubi (a b : PReg) (c : RReg) (s : State) : Result :=
  finishP a (truncFixed (s.signedP b - scaledInt (s.signedR c))) s

/-- `PMASK pa, pb, rc` (R176). -/
def execPmask (a b : PReg) (c : RReg) (s : State) : Result := finishP a (maskPhase (s.readP b) (s.readR c)) s

/-- `PWRAP pa, pb, rc, rd` (R177). -/
def execPwrap (a b : PReg) (c d : RReg) (s : State) : Result :=
  attempt [raiseIf (decide (s.signedR d ≤ s.signedR c)) .loopRange (s.readR c)]
    (fun s => (s.writeP a (truncFixed (wrapPhase (s.signedP b) (s.signedR c) (s.signedR d)))).advance) s

/-- `PREFL pa, pb, rc` (R178). -/
def execPrefl (a b : PReg) (c : RReg) (s : State) : Result :=
  finishP a (truncFixed (mirrorPhase (s.signedP b) (s.signedR c))) s

/-- `PINT ra, pb` (R179). -/
def execPint (a : RReg) (b : PReg) (s : State) : Result := .next (s.writeR a (intBits (s.readP b))).advance

/-- `PFRAC fa, pb` (R180). -/
def execPfrac (a : FReg) (b : PReg) (s : State) : Result := .next (s.writeF a (fracFloat (s.readP b))).advance

/-- `PGE ra, pb, rc` (R181). -/
def execPge (a : RReg) (b : PReg) (c : RReg) (s : State) : Result :=
  .next (s.writeR a (truthWord (decide (scaledInt (s.signedR c) ≤ s.signedP b)))).advance

/-- `PMOV pa, pb` (R182). -/
def execPmov (a b : PReg) (s : State) : Result := finishP a (s.readP b) s

end Sys2Proof.Machine
end

