-- ==== Sys2Proof/Machine/ScalarFloat.lean ====
section
/-! DEFINITION. Scalar float instructions (spec/45_scalar_float.md R270 to R276). -/

namespace Sys2Proof.Machine

/-- `F[a] <- v` and on to the next word. -/
def finishF (a : FReg) (v : Word) (s : State) : Result := .next (s.writeF a v).advance

/-- `FADD fa, fb, fc` (R271). -/
def execFadd (a b c : FReg) (s : State) : Result := finishF a (fadd (s.readF b) (s.readF c)) s

/-- `FSUB fa, fb, fc` (R272). -/
def execFsub (a b c : FReg) (s : State) : Result := finishF a (fsub (s.readF b) (s.readF c)) s

/-- `FMUL fa, fb, fc` (R273). -/
def execFmul (a b c : FReg) (s : State) : Result := finishF a (fmul (s.readF b) (s.readF c)) s

/-- `FMVRF fa, rb`: all 32 bits, no conversion (R274). -/
def execFmvrf (a : FReg) (b : RReg) (s : State) : Result := finishF a (s.readR b) s

/-- `FMVFR ra, fb`: all 32 bits, no conversion (R275). -/
def execFmvfr (a : RReg) (b : FReg) (s : State) : Result := .next (s.writeR a (s.readF b)).advance

/-- `FCVTSW fa, rb`: `RN32` of the signed integer (R276). -/
def execFcvtsw (a : FReg) (b : RReg) (s : State) : Result := finishF a (intToFloat (s.signedR b)) s

end Sys2Proof.Machine
end

