-- ==== Sys2Proof/Machine/Wave.lean ====
section
/-! DEFINITION. The wavetable sample interpolator `WLK` (spec/44_wavetable.md R250 to R256). -/

namespace Sys2Proof.Machine

/-- A table descriptor (R250). -/
structure WaveDesc where
  /-- `BASE`: word address of sample 0 of table 0. -/
  base : Nat
  /-- `LEN`: samples per table. -/
  len : Nat
  /-- `NTAB`: number of tables. -/
  ntab : Nat
  /-- `MODE`: bit 0 `WRAP`, bit 1 `LI`, bit 2 `XI`. -/
  mode : Word
deriving DecidableEq, Repr

/-- The descriptor at word `q`, four words (R250). -/
def waveDesc (s : State) (q : Nat) : WaveDesc :=
  ⟨(s.dmemWord q).toNat, (s.dmemWord (q + 1)).toNat, (s.dmemWord (q + 2)).toNat, s.dmemWord (q + 3)⟩

/-- `WRAP`: the table is periodic (R250). -/
def wrapBit (d : WaveDesc) : Bool := d.mode.getLsbD 0

/-- `LI`: interpolate between adjacent samples (R250). -/
def sampleInterpBit (d : WaveDesc) : Bool := d.mode.getLsbD 1

/-- `XI`: interpolate between adjacent tables (R250). -/
def tableInterpBit (d : WaveDesc) : Bool := d.mode.getLsbD 2

/-- Whether a number is a power of two. -/
def isPowerOfTwo (n : Nat) : Bool := decide (n = 2 ^ n.log2)

/-- A valid descriptor (R251). -/
def waveDescValid (s : State) (d : WaveDesc) : Bool :=
  decide (1 ≤ d.len) && decide (1 ≤ d.ntab) && d.mode.extractLsb' 3 29 == 0#29 &&
  (!wrapBit d || isPowerOfTwo d.len) && decide (d.base + d.ntab * d.len ≤ s.cfg.dmemWords)

/-- `i = INT(P)`, a signed integer (R253). -/
def phaseIndex (p : DWord) : Int := (intBits p).toInt

/-- `i0`: the index masked when `WRAP` = 1, else itself (R253). -/
def sampleIndex (d : WaveDesc) (p : DWord) : Nat :=
  if wrapBit d then (intBits p).toNat &&& (d.len - 1) else (phaseIndex p).toNat

/-- `i1`: the next sample, masked when `WRAP` = 1, else not past the last sample (R253). -/
def nextSampleIndex (d : WaveDesc) (p : DWord) : Nat :=
  if wrapBit d then (sampleIndex d p + 1) &&& (d.len - 1) else min (sampleIndex d p + 1) (d.len - 1)

/-- Sample `k` of table `t` (R250). -/
def tableSample (s : State) (d : WaveDesc) (t k : Nat) : Word := s.dmemWord (d.base + t * d.len + k)

/-- `intra(t)` (R253). -/
def tableValue (s : State) (d : WaveDesc) (p : DWord) (t : Nat) : Word :=
  if sampleInterpBit d then
    lerp (tableSample s d t (sampleIndex d p)) (tableSample s d t (nextSampleIndex d p)) (fracFloat p)
  else tableSample s d t (sampleIndex d p)

/-- The result of the lookup with table index `w` (R254). -/
def waveValue (s : State) (d : WaveDesc) (p : DWord) (w : Word) : Word :=
  if d.ntab = 1 then tableValue s d p 0
  else if fle w 0#32 then tableValue s d p 0
  else if fge w (intToFloat (d.ntab - 1 : Nat)) then tableValue s d p (d.ntab - 1)
  else if tableInterpBit d then
    lerp (tableValue s d p (floorNonneg w)) (tableValue s d p (floorNonneg w + 1))
      (fsub w (intToFloat (floorNonneg w)))
  else tableValue s d p (floorNonneg w)

/-- The checks of `WLK` in the order of R255. -/
def waveChecks (s : State) (q : Nat) (p : DWord) (w : Word) : List (Option FaultRecord) :=
  [rangeCheck s q 4,
   raiseIf (!waveDescValid s (waveDesc s q)) .waveDesc (BitVec.ofNat 32 q),
   raiseIf (decide (1 < (waveDesc s q).ntab) && isNaN w) .waveIndex w,
   raiseIf (!wrapBit (waveDesc s q) &&
      (decide (phaseIndex p < 0) || decide (((waveDesc s q).len : Int) ≤ phaseIndex p))) .sampleRange (intBits p)]

/-- `WLK fa, pb, rc, fd` (R256). -/
def execWlk (a : FReg) (b : PReg) (c : RReg) (d : FReg) (s : State) : Result :=
  attempt (waveChecks s (s.unsignedR c) (s.readP b) (s.readF d))
    (fun s => (s.writeF a (waveValue s (waveDesc s (s.unsignedR c)) (s.readP b) (s.readF d))).advance) s

end Sys2Proof.Machine
end

