-- ==== Sys2Proof/Machine/Dispatch.lean ====
section
/-! DEFINITION. One arm per instruction of spec/30_encoding.md R106, each a call of its own meaning. -/

namespace Sys2Proof.Machine

/-- Performs one instruction at `pc = PC` (spec/40_sequencer.md R130). -/
def exec (i : Instr) (s : State) : Host.Outcome State Fault Refusal :=
  match i with
  | .nop => Sys2Proof.Machine.execNop s
  | .halt => Sys2Proof.Machine.execHalt s
  | .li a imm => Sys2Proof.Machine.execLi a imm s
  | .lui a imm => Sys2Proof.Machine.execLui a imm s
  | .addi a b imm => Sys2Proof.Machine.execAddi a b imm s
  | .ori a b imm => Sys2Proof.Machine.execOri a b imm s
  | .add a b c => Sys2Proof.Machine.execAdd a b c s
  | .sub a b c => Sys2Proof.Machine.execSub a b c s
  | .and a b c => Sys2Proof.Machine.execAnd a b c s
  | .or a b c => Sys2Proof.Machine.execOr a b c s
  | .xor a b c => Sys2Proof.Machine.execXor a b c s
  | .slt a b c => Sys2Proof.Machine.execSlt a b c s
  | .sltu a b c => Sys2Proof.Machine.execSltu a b c s
  | .j offset => Sys2Proof.Machine.execJ offset s
  | .beqz a offset => Sys2Proof.Machine.execBeqz a offset s
  | .bnez a offset => Sys2Proof.Machine.execBnez a offset s
  | .lw a b imm => Sys2Proof.Machine.execLw a b imm s
  | .sw a b imm => Sys2Proof.Machine.execSw a b imm s
  | .flw a b imm => Sys2Proof.Machine.execFlw a b imm s
  | .fsw a b imm => Sys2Proof.Machine.execFsw a b imm s
  | .plw a b imm => Sys2Proof.Machine.execPlw a b imm s
  | .psw a b imm => Sys2Proof.Machine.execPsw a b imm s
  | .pldd a b imm => Sys2Proof.Machine.execPldd a b imm s
  | .fadd a b c => Sys2Proof.Machine.execFadd a b c s
  | .fsub a b c => Sys2Proof.Machine.execFsub a b c s
  | .fmul a b c => Sys2Proof.Machine.execFmul a b c s
  | .fmvrf a b => Sys2Proof.Machine.execFmvrf a b s
  | .fmvfr a b => Sys2Proof.Machine.execFmvfr a b s
  | .fcvtsw a b => Sys2Proof.Machine.execFcvtsw a b s
  | .padd a b c => Sys2Proof.Machine.execPadd a b c s
  | .pneg a b => Sys2Proof.Machine.execPneg a b s
  | .psubi a b c => Sys2Proof.Machine.execPsubi a b c s
  | .pmask a b c => Sys2Proof.Machine.execPmask a b c s
  | .pwrap a b c d => Sys2Proof.Machine.execPwrap a b c d s
  | .prefl a b c => Sys2Proof.Machine.execPrefl a b c s
  | .pint a b => Sys2Proof.Machine.execPint a b s
  | .pfrac a b => Sys2Proof.Machine.execPfrac a b s
  | .pge a b c => Sys2Proof.Machine.execPge a b c s
  | .pmov a b => Sys2Proof.Machine.execPmov a b s
  | .pfromf a b => Sys2Proof.Machine.execPfromf a b s
  | .wlk a b c d => Sys2Proof.Machine.execWlk a b c d s
  | .vrampa a b c d => Sys2Proof.Machine.execVrampa a b c d s
  | .vrampm a b c d => Sys2Proof.Machine.execVrampm a b c d s
  | .iir2di a b c d => Sys2Proof.Machine.execIir2di a b c d s
  | .iir2dii a b c d => Sys2Proof.Machine.execIir2dii a b c d s
  | .iir1ap a b c d => Sys2Proof.Machine.execIir1ap a b c d s
  | .iir2diMacc a b c d => Sys2Proof.Machine.execIir2diMacc a b c d s
  | .iir2diiMacc a b c d => Sys2Proof.Machine.execIir2diiMacc a b c d s
  | .iir1apMacc a b c d => Sys2Proof.Machine.execIir1apMacc a b c d s

end Sys2Proof.Machine
end

