-- ==== Sys2Proof/Machine/Sequencer.lean ====
section
/-! DEFINITION. The execution cycle of the sequencer (spec/40_sequencer.md R130, spec/60_exceptions.md R301, R302)
and the placing of one instruction where it fetches next (log 7). -/

namespace Sys2Proof.Machine

/-- Whether `PC` names a word of command memory (R130, R301). -/
def fetchable (s : State) : Bool := decide (s.pc.toNat < s.cfg.imemWords)

/-- `IFetch(PC)`: the four bytes of the word at `PC` (R12, R72). -/
def fetchBytes (s : State) : List Byte :=
  [s.imemByte (4 * s.pc.toNat), s.imemByte (4 * s.pc.toNat + 1), s.imemByte (4 * s.pc.toNat + 2),
   s.imemByte (4 * s.pc.toNat + 3)]

/-- `IFetch(PC)` as a word, what `ILLEGAL_INSTR` records (R300). -/
def fetchedWord (s : State) : Word := s.imemWord s.pc.toNat

/-- One step of R130: fetch check, decode, the instruction. -/
def instructionStep (s : State) : Result :=
  if fetchable s then
    match decodeBytes (fetchBytes s) with
    | .instr i => exec i s
    | .illegal _ => .next (takeFault ⟨.illegalInstr, fetchedWord s⟩ s)
  else .next (takeFault ⟨.fetchRange, s.pc⟩ s)

/-- `CTRL.STEP`: exactly one instruction, `RUN` staying 0; ignored while running or with a fault recorded (R38). -/
def stepCommand (s : State) : Result :=
  if !s.run && !s.faulted then instructionStep { s with halted := false } else .next s

/-- The actions of a write of `CTRL` after STOP: CLRFAULT, START, STEP in this order, each seeing what the one
before left (R38). -/
def ctrlActions (v : Word) (s : State) : Result :=
  let s := if v.getLsbD 2 then clearFault s else s
  let s := if v.getLsbD 0 then startSequencer s else s
  if v.getLsbD 1 then stepCommand s else .next s

/-- Writes of `CTRL` whose STOP has waited, once no instruction is in progress: each stops the sequencer, then its
other actions follow, in the order of the writes (R38, R130; log 9, log 22). -/
def finishStops : List Word → State → Result
  | [], s => .next s
  | v :: rest, s => andThen (ctrlActions v (stopSequencer s)) (finishStops rest)

/-- The pending writes of `CTRL.STOP` take effect with no instruction in progress (R38; log 22). -/
def takePendingStops (s : State) : Result := finishStops s.pendingCtrl { s with pendingCtrl := [] }

/-- The sequencer's turn: one instruction while `STATUS.RUN` = 1, nothing while it is 0 (R130, R312; log 8). The
pending writes of `CTRL.STOP` take effect when that instruction is finished (R38, R130, R345; log 9). -/
def sequencerTurn (s : State) : Result :=
  if s.run then andThen (instructionStep { s with pendingCtrl := [] }) (finishStops s.pendingCtrl) else .next s

/-- `s` with a word stored where the sequencer fetches next, `PC` brought into command memory if it lies outside,
the fault record cleared, the sequencer started, no STOP pending and no other agent's turn before it (log 7). -/
def placeInstruction (w : Word) (s : State) : State :=
  let s := if fetchable s then s else s.goTo 0#32
  let s := s.setImemWord s.pc.toNat w
  startSequencer (clearFault (stopSequencer { s with turns := [], pendingCtrl := [] }))

end Sys2Proof.Machine
end

