-- ==== Sys2Proof/Machine/Reset.lean ====
section
/-! DEFINITION. The reset input (spec/70_reset_and_hazards.md R340): between two instructions, and in the middle of
one, which it abandons (spec/93_implementation_defined.md U26). -/

namespace Sys2Proof.Machine

/-- Reset: every register, `PC` and CSR takes its reset value, the memories and the parameters stay (R340). The
turns still to come, what the host last read and the count of free values are no part of the machine. -/
def resetMachine (s : State) : State :=
  { State.resetWith s.cfg s.imem s.dmem with
    turns := s.turns
    hostData := s.hostData
    freeIndex := s.freeIndex }

/-- The `count` word addresses from `base`. -/
def wordsFrom (base count : Nat) : List Nat := (List.range count).map (fun i => base + i)

/-- The data words of an instruction's target region: its store address, its vector target, and an IIR
descriptor's history words (R340). -/
def targetWords (i : Instr) (s : State) : List Nat :=
  match i with
  | .sw _ b imm => [effAddr s b imm]
  | .fsw _ b imm => [effAddr s b imm]
  | .psw _ b imm => [effAddr s b imm, effAddr s b imm + 1]
  | .vrampa a _ _ d => wordsFrom (s.unsignedR a) (s.unsignedR d)
  | .vrampm a _ _ d => wordsFrom (s.unsignedR a) (s.unsignedR d)
  | .iir2di a _ c d => wordsFrom (s.unsignedR c) (s.unsignedR d) ++ wordsFrom (s.unsignedR a + 5) 4
  | .iir2diMacc a _ c d => wordsFrom (s.unsignedR c) (s.unsignedR d) ++ wordsFrom (s.unsignedR a + 5) 4
  | .iir2dii a _ c d => wordsFrom (s.unsignedR c) (s.unsignedR d) ++ wordsFrom (s.unsignedR a + 5) 2
  | .iir2diiMacc a _ c d => wordsFrom (s.unsignedR c) (s.unsignedR d) ++ wordsFrom (s.unsignedR a + 5) 2
  | .iir1ap a _ c d => wordsFrom (s.unsignedR c) (s.unsignedR d) ++ wordsFrom (s.unsignedR a + 2) 1
  | .iir1apMacc a _ c d => wordsFrom (s.unsignedR c) (s.unsignedR d) ++ wordsFrom (s.unsignedR a + 2) 1
  | .nop | .halt | .li _ _ | .lui _ _ | .addi _ _ _ | .ori _ _ _ | .add _ _ _ | .sub _ _ _ | .and _ _ _
  | .or _ _ _ | .xor _ _ _ | .slt _ _ _ | .sltu _ _ _ | .j _ | .beqz _ _ | .bnez _ _ | .lw _ _ _ | .flw _ _ _
  | .plw _ _ _ | .pldd _ _ _ | .fadd _ _ _ | .fsub _ _ _ | .fmul _ _ _ | .fmvrf _ _ | .fmvfr _ _
  | .fcvtsw _ _ | .padd _ _ _ | .pneg _ _ | .psubi _ _ _ | .pmask _ _ _ | .pwrap _ _ _ _ | .prefl _ _ _
  | .pint _ _ | .pfrac _ _ | .pge _ _ _ | .pmov _ _ | .pfromf _ _ | .wlk _ _ _ _ => []

/-- Whether an instruction writes data memory here: not when one of its checks fails (R132), and not a vector
instruction with count 0 (R80). Both leave data memory as it was. -/
def storesHere (i : Instr) (s : State) : Bool :=
  match i, exec i { s with faulted := false } with
  | .vrampa _ _ _ d, .next t => !t.faulted && s.unsignedR d != 0
  | .vrampm _ _ _ d, .next t => !t.faulted && s.unsignedR d != 0
  | .iir2di _ _ _ d, .next t => !t.faulted && s.unsignedR d != 0
  | .iir2diMacc _ _ _ d, .next t => !t.faulted && s.unsignedR d != 0
  | .iir2dii _ _ _ d, .next t => !t.faulted && s.unsignedR d != 0
  | .iir2diiMacc _ _ _ d, .next t => !t.faulted && s.unsignedR d != 0
  | .iir1ap _ _ _ d, .next t => !t.faulted && s.unsignedR d != 0
  | .iir1apMacc _ _ _ d, .next t => !t.faulted && s.unsignedR d != 0
  | _, .next t => !t.faulted
  | _, _ => false

/-- Leaves each of the listed data words at a free value (R340, U26; log 6). -/
def leaveUnspecified : List Nat → State → State
  | [], s => s
  | j :: rest, s =>
    leaveUnspecified rest
      { s.setDmemWord j (Config.abandonedWord s.freeIndex) with freeIndex := s.freeIndex + 1 }

/-- The data words that abandoning the instruction at `PC` leaves unspecified (R340). -/
def abandonedWords (s : State) : List Nat :=
  if fetchable s then
    match decodeBytes (fetchBytes s) with
    | .instr i => if storesHere i s then targetWords i s else []
    | .illegal _ => []
  else []

/-- Reset in the middle of the instruction at `PC` (R340, U26; log 17). -/
def resetDuringInstruction (s : State) : State := resetMachine (leaveUnspecified (abandonedWords s) s)

end Sys2Proof.Machine
end

