-- ==== Sys2Proof/Machine/HostWindow.lean ====
section
/-! DEFINITION. The host window (spec/10_state.md R36 to R45): where an offset leads, what a read returns, what a
write does, and which accesses the model refuses. -/

namespace Sys2Proof.Machine

/-- What lies at an offset of the window (R44). -/
inductive HostLoc where
  | id
  | ctrl
  | status
  | pcr
  | cause
  | fpc
  | finfo
  | irqen
  | irqstat
  | cfgImem
  | cfgDmem
  | cfgFloor
  | intReg (a : RReg)
  | floatReg (a : FReg)
  /-- `P[k][31:0]`. -/
  | phaseLow (k : PReg)
  /-- `P[k][63:32]`. -/
  | phaseHigh (k : PReg)
  | imem (j : Nat)
  | dmem (j : Nat)
  | reserved
deriving DecidableEq, Repr

/-- The CSR at an aligned offset below 0x30 (R37 to R43). -/
def csrAt (offset : Nat) : HostLoc :=
  match offset / 4 with
  | 0 => .id
  | 1 => .ctrl
  | 2 => .status
  | 3 => .pcr
  | 4 => .cause
  | 5 => .fpc
  | 6 => .finfo
  | 7 => .irqen
  | 8 => .irqstat
  | 9 => .cfgImem
  | 10 => .cfgDmem
  | 11 => .cfgFloor
  | _ => .reserved

/-- What lies at an aligned byte offset (R44). -/
def hostLoc (cfg : Params) (offset : Nat) : HostLoc :=
  if offset < 0x30 then csrAt offset
  else if offset < 0x100 then .reserved
  else if offset < 0x140 then .intReg (BitVec.ofNat 4 ((offset - 0x100) / 4))
  else if offset < 0x180 then .floatReg (BitVec.ofNat 4 ((offset - 0x140) / 4))
  else if offset < 0x1C0 then
    if (offset - 0x180) % 8 < 4 then .phaseLow (BitVec.ofNat 3 ((offset - 0x180) / 8))
    else .phaseHigh (BitVec.ofNat 3 ((offset - 0x180) / 8))
  else if offset < 0x10000 then .reserved
  else if offset < 0x10000 + 4 * cfg.imemWords then .imem ((offset - 0x10000) / 4)
  else if offset < 0x4000000 then .reserved
  else if offset < 0x4000000 + 4 * cfg.dmemWords then .dmem ((offset - 0x4000000) / 4)
  else .reserved

/-- What the host may access while `STATUS.RUN` = 1 (R45 (b)). -/
def openWhileRunning : HostLoc → Bool
  | .id | .ctrl | .status | .irqen | .irqstat | .cfgImem | .cfgDmem | .cfgFloor | .reserved => true
  | .pcr | .cause | .fpc | .finfo | .intReg _ | .floatReg _ | .phaseLow _ | .phaseHigh _ | .imem _ | .dmem _ => false

/-- The word a host read returns (R37 to R44). -/
def hostReadWord (s : State) : HostLoc → Word
  | .id => 0x56440001#32
  | .ctrl => 0#32
  | .status => statusWord s
  | .pcr => s.pc
  | .cause => 0#24 ++ s.cause
  | .fpc => s.fpc
  | .finfo => s.finfo
  | .irqen => 0#30 ++ s.irqen
  | .irqstat => 0#30 ++ s.irqstat
  | .cfgImem => BitVec.ofNat 32 s.cfg.imemWords
  | .cfgDmem => BitVec.ofNat 32 s.cfg.dmemWords
  | .cfgFloor => s.cfg.rampFloor
  | .intReg a => s.readR a
  | .floatReg a => s.readF a
  | .phaseLow k => fracBits (s.readP k)
  | .phaseHigh k => intBits (s.readP k)
  | .imem j => s.imemWord j
  | .dmem j => s.dmemWord j
  | .reserved => 0#32

/-- A write of `CTRL`: STOP, CLRFAULT, START, STEP in this order (R38). A STOP that finds the sequencer running
stays pending until the instruction in progress is finished (R130, R345), and the other actions of its write, which
see what it leaves, wait with it (log 9); a STOP that finds it stopped is ignored. -/
def writeCtrl (v : Word) (s : State) : Result :=
  if v.getLsbD 3 && s.run then .next { s with pendingCtrl := s.pendingCtrl ++ [v] } else ctrlActions v s

/-- What a host write does (R37 to R44): read-only and reserved places ignore it. -/
def hostWriteWord (s : State) (v : Word) : HostLoc → Result
  | .ctrl => writeCtrl v s
  | .pcr => .next (s.goTo v)
  | .irqen => .next { s with irqen := v.extractLsb' 0 2 }
  | .irqstat => .next { s with irqstat := s.irqstat &&& ~~~(v.extractLsb' 0 2) }
  | .intReg a => .next (s.writeR a v)
  | .floatReg a => .next (s.writeF a v)
  | .phaseLow k => .next (s.writeP k (intBits (s.readP k) ++ v))
  | .phaseHigh k => .next (s.writeP k (v ++ fracBits (s.readP k)))
  | .imem j => .next (s.setImemWord j v)
  | .dmem j => .next (s.setDmemWord j v)
  | .id | .status | .cause | .fpc | .finfo | .cfgImem | .cfgDmem | .cfgFloor | .reserved => .next s

/-- An aligned 32-bit access (R45 (a), R75). -/
def hostAccessWell (width offset : Nat) : Bool := width == 4 && offset % 4 == 0

/-- The host's turn to access the window: refused when R45 forbids it, else `action` on what lies there. -/
def hostAccess (width offset : Nat) (action : HostLoc → Result) (s : State) : Result :=
  if !hostAccessWell width offset then .refused .hostAccessForm
  else if s.run && !openWhileRunning (hostLoc s.cfg offset) then .refused .hostAccessWhileRunning
  else action (hostLoc s.cfg offset)

/-- A host read: the machine does not change, the host has the word (R78; log 5). -/
def hostRead (width offset : Nat) (s : State) : Result :=
  hostAccess width offset (fun loc => .next { s with hostData := hostReadWord s loc }) s

/-- A host write. -/
def hostWrite (width offset : Nat) (v : Word) (s : State) : Result :=
  hostAccess width offset (hostWriteWord s v) s

/-- One turn (R82; log 4). -/
def takeTurn (turn : Turn) (s : State) : Result :=
  match turn with
  | .sequencer => sequencerTurn s
  | .hostRead width offset => hostRead width offset s
  | .hostWrite width offset v => hostWrite width offset v s
  | .stopTakesEffect => takePendingStops s
  | .reset => .next (resetMachine s)
  | .resetDuringInstruction => .next (resetDuringInstruction s)

/-- The next turn of the machine: the first one listed, or the sequencer's when none is (R82; log 4). -/
def nextTurn (s : State) : Result :=
  match s.turns with
  | [] => sequencerTurn s
  | turn :: rest => takeTurn turn { s with turns := rest }

end Sys2Proof.Machine
end

