-- ==== Sys2Proof/Machine/Step.lean ====
section
/-! DEFINITION. One step of the whole machine, and the placing of an instruction for its next step. -/

namespace Sys2Proof.Machine

/-- One step: the next turn (spec/20_memory.md R82, spec/40_sequencer.md R130). A state whose parameters lie
outside the limits of spec/00_scope.md R7 is no VDB (log 10). -/
def step (s : State) : Host.Outcome State Fault Refusal :=
  if s.cfg.legal then nextTurn s else .fault .illegalParameters

/-- `s` with the instruction whose lowest `nbits` bits are `w` stored where `step` fetches next, and all else that
its running takes (log 7). -/
def State.withFetchWord (s : State) (nbits w : Nat) : State := placeInstruction (BitVec.ofNat 32 (w % 2 ^ nbits)) s

end Sys2Proof.Machine
end

