-- ==== Sys2Proof/Safety.lean ====
section
/-! DEFINITION. The terms in which claims about the VDB are made: what stays the same, what one instruction
changed, and the invariant of every reachable state. -/

namespace Sys2Proof.Machine

/-! ## What stays the same -/

/-- Every integer register reads as before. -/
def SameR (s t : State) : Prop := ∀ k : RReg, t.readR k = s.readR k

/-- Every float register reads as before. -/
def SameF (s t : State) : Prop := ∀ k : FReg, t.readF k = s.readF k

/-- Every phase register reads as before. -/
def SameP (s t : State) : Prop := ∀ k : PReg, t.readP k = s.readP k

/-- Every byte of data memory reads as before. -/
def SameDmem (s t : State) : Prop := ∀ a : Nat, t.dmemByte a = s.dmemByte a

/-- Every byte of command memory reads as before. -/
def SameImem (s t : State) : Prop := ∀ a : Nat, t.imemByte a = s.imemByte a

/-- Every byte of data memory outside the `count` words from word `base` reads as before. -/
def SameDmemOutside (base count : Nat) (s t : State) : Prop :=
  ∀ a : Nat, (a < 4 * base ∨ 4 * (base + count) ≤ a) → t.dmemByte a = s.dmemByte a

/-- The status bits, the fault record, the interrupt registers, the parameters and the model's own fields are as
before: all that is neither a register, `PC` nor memory. -/
def SameControl (s t : State) : Prop :=
  t.run = s.run ∧ t.faulted = s.faulted ∧ t.halted = s.halted ∧ t.cause = s.cause ∧ t.fpc = s.fpc ∧
  t.finfo = s.finfo ∧ t.irqen = s.irqen ∧ t.irqstat = s.irqstat ∧ t.cfg = s.cfg ∧
  t.pendingCtrl = s.pendingCtrl ∧ t.turns = s.turns ∧ t.hostData = s.hostData ∧ t.freeIndex = s.freeIndex

/-- Registers and memories are as before. -/
def SameData (s t : State) : Prop := SameR s t ∧ SameF s t ∧ SameP s t ∧ SameDmem s t ∧ SameImem s t

/-! ## What one instruction did -/

/-- Only `PC` changed, to `target`. -/
def OnlyPc (target : Word) (s t : State) : Prop := t.pc = target ∧ SameData s t ∧ SameControl s t

/-- `R[a]` took the value `v`, unless `a` = 0, where nothing is written (R31); `PC` moved to the next word;
nothing else changed. -/
def OnlyR (a : RReg) (v : Word) (s t : State) : Prop :=
  t.readR a = (if a = 0#4 then 0#32 else v) ∧ (∀ k : RReg, k ≠ a → t.readR k = s.readR k) ∧
  t.pc = s.pc + 1#32 ∧ SameF s t ∧ SameP s t ∧ SameDmem s t ∧ SameImem s t ∧ SameControl s t

/-- `F[a]` took the value `v`; `PC` moved to the next word; nothing else changed. -/
def OnlyF (a : FReg) (v : Word) (s t : State) : Prop :=
  t.readF a = v ∧ (∀ k : FReg, k ≠ a → t.readF k = s.readF k) ∧
  t.pc = s.pc + 1#32 ∧ SameR s t ∧ SameP s t ∧ SameDmem s t ∧ SameImem s t ∧ SameControl s t

/-- `P[a]` took the value `v`; `PC` moved to the next word; nothing else changed. -/
def OnlyP (a : PReg) (v : DWord) (s t : State) : Prop :=
  t.readP a = v ∧ (∀ k : PReg, k ≠ a → t.readP k = s.readP k) ∧
  t.pc = s.pc + 1#32 ∧ SameR s t ∧ SameF s t ∧ SameDmem s t ∧ SameImem s t ∧ SameControl s t

/-- No register changed, `PC` moved to the next word, and only data memory may have changed. -/
def OnlyDmem (s t : State) : Prop :=
  t.pc = s.pc + 1#32 ∧ SameR s t ∧ SameF s t ∧ SameP s t ∧ SameImem s t ∧ SameControl s t

/-- The fault action of R303 happened and nothing else: the sequencer stopped with `cause` and `info` recorded at
`PC`, which did not move. -/
def FaultTaken (cause : Cause) (info : Word) (s t : State) : Prop :=
  t.run = false ∧ t.faulted = true ∧ t.cause = causeCode cause ∧ t.fpc = s.pc ∧ t.finfo = info ∧
  t.irqstat = setFaultPending s.irqstat ∧ t.pc = s.pc ∧ SameData s t ∧
  t.halted = s.halted ∧ t.irqen = s.irqen ∧ t.cfg = s.cfg ∧ t.pendingCtrl = s.pendingCtrl ∧
  t.turns = s.turns ∧ t.hostData = s.hostData ∧
  t.freeIndex = s.freeIndex

/-- An instruction leaves the world outside the sequencer alone: command memory, the interrupt enables, the
parameters and the other agents' turns (R36, R70, R307). -/
def OutsideUntouched (s t : State) : Prop :=
  t.imem = s.imem ∧ t.irqen = s.irqen ∧ t.cfg = s.cfg ∧ t.pendingCtrl = s.pendingCtrl ∧
  t.turns = s.turns ∧ t.hostData = s.hostData ∧
  t.freeIndex = s.freeIndex

/-! ## The invariant of every reachable state -/

/-- Both memories are in canonical form and list only words that exist (R70). -/
def MemoryOk (s : State) : Prop :=
  s.imem.wf = true ∧ s.dmem.wf = true ∧ s.imem.within s.cfg.imemWords = true ∧ s.dmem.within s.cfg.dmemWords = true

/-- RUN, FAULT and HALTED are never two of them 1: a fault clears RUN (R39), HALT clears RUN (R134), and START
and STEP, which alone let an instruction run, need FAULT = 0 and clear HALTED (R38). -/
def StatusOk (s : State) : Prop :=
  (s.run = true → s.faulted = false ∧ s.halted = false) ∧ (s.faulted = true → s.halted = false)

/-- A write of `CTRL` waits only while the sequencer runs, and only for its STOP (R38). -/
def PendingOk (s : State) : Prop :=
  (s.pendingCtrl ≠ [] → s.run = true) ∧ ∀ v ∈ s.pendingCtrl, v.getLsbD 3 = true

/-- The fault record is zero while FAULT is 0, and holds one of the causes 1 to 10 while it is 1 (R41, R300). -/
def RecordOk (s : State) : Prop :=
  (s.faulted = false → s.cause = 0#8 ∧ s.fpc = 0#32 ∧ s.finfo = 0#32) ∧
  (s.faulted = true → 1 ≤ s.cause.toNat ∧ s.cause.toNat ≤ 10)

/-- What holds of every state that a run reaches. -/
def Inv (s : State) : Prop := s.cfg.legal = true ∧ MemoryOk s ∧ StatusOk s ∧ PendingOk s ∧ RecordOk s

/-! ## Performing an encoded instruction -/

/-- The word `w` is the instruction `i`, and performing `i` at `s` answers a next state `t` with `post s t`. -/
def Executes (w : Word) (i : Instr) (s : State) (post : State → State → Prop) : Prop :=
  decode w = .instr i ∧ ∃ t, exec i s = .next t ∧ post s t

/-- `result` is what one cycle of R130 answers from `s`: the fetch fault, the illegal word's fault, or what `exec`
answers for the instruction that the word at `PC` decodes to. -/
def CycleFrom (s : State) (result : Result) : Prop :=
  (s.cfg.imemWords ≤ s.pc.toNat → ∃ t, result = .next t ∧ FaultTaken .fetchRange s.pc s t) ∧
  (s.pc.toNat < s.cfg.imemWords →
    (∀ i, decode (s.imemWord s.pc.toNat) = .instr i → result = exec i s) ∧
    ∀ why, decode (s.imemWord s.pc.toNat) = .illegal why →
      ∃ t, result = .next t ∧ FaultTaken .illegalInstr (s.imemWord s.pc.toNat) s t)

/-- A byte offset of the window that belongs to the sequencer while it runs: `PCR`, the fault record, the
registers and the two memories (R45). -/
def OwnedWhileRunning (cfg : Params) (offset : Nat) : Prop :=
  offset = 0x0C ∨ (0x10 ≤ offset ∧ offset < 0x1C) ∨ (0x100 ≤ offset ∧ offset < 0x1C0) ∨
  (0x10000 ≤ offset ∧ offset < 0x10000 + 4 * cfg.imemWords) ∨
  (0x4000000 ≤ offset ∧ offset < 0x4000000 + 4 * cfg.dmemWords)

/-- Two regions of words share no word. -/
abbrev Apart (base1 count1 base2 count2 : Nat) : Prop := base1 + count1 ≤ base2 ∨ base2 + count2 ≤ base1

/-- The table descriptor at word `q` is valid, condition by condition of R251. -/
def WaveDescOk (s : State) (q : Nat) : Prop :=
  1 ≤ (s.dmemWord (q + 1)).toNat ∧ 1 ≤ (s.dmemWord (q + 2)).toNat ∧
  (s.dmemWord (q + 3)).extractLsb' 3 29 = 0#29 ∧
  ((s.dmemWord (q + 3)).getLsbD 0 = true → ∃ k, (s.dmemWord (q + 1)).toNat = 2 ^ k) ∧
  (s.dmemWord q).toNat + (s.dmemWord (q + 2)).toNat * (s.dmemWord (q + 1)).toNat ≤ s.cfg.dmemWords

/-- A binary32 pattern that is neither a NaN nor an infinity. -/
abbrev Finite (x : Word) : Prop := isNaN x = false ∧ isInf x = false

/-- Word `j` is one of the `count` words from `base`. -/
abbrev InRegion (base count j : Nat) : Prop := base ≤ j ∧ j < base + count

/-- A store of `count` words at its effective address is in range and writes word `j` (R149). -/
abbrev StoreWrites (s : State) (b : RReg) (imm : Int) (count j : Nat) : Prop :=
  effAddr s b imm + count ≤ s.cfg.dmemWords ∧ InRegion (effAddr s b imm) count j

/-- A ramp's target region is in range and holds word `j` (R200). -/
abbrev RampWrites (s : State) (a d : RReg) (j : Nat) : Prop :=
  s.unsignedR a + s.unsignedR d ≤ s.cfg.dmemWords ∧ InRegion (s.unsignedR a) (s.unsignedR d) j

/-- A filter with a count that is not 0 has its three regions in range, its descriptor being of `size` words, and
its target or the `count` history words at `history` hold word `j` (R220, R221). -/
abbrev FilterWrites (s : State) (size history count : Nat) (a b c d : RReg) (j : Nat) : Prop :=
  0 < s.unsignedR d ∧ s.unsignedR a + size ≤ s.cfg.dmemWords ∧ s.unsignedR b + s.unsignedR d ≤ s.cfg.dmemWords ∧
  s.unsignedR c + s.unsignedR d ≤ s.cfg.dmemWords ∧
  (InRegion (s.unsignedR c) (s.unsignedR d) j ∨ InRegion (s.unsignedR a + history) count j)

/-- Word `j` lies in the target region of an instruction that writes data memory here, case by case from R340: its
checks pass (R132), its count is not 0 (R80), and `j` is its store address, a word of its vector target, or a
history word of its IIR descriptor. -/
def WritesWord (i : Instr) (s : State) (j : Nat) : Prop :=
  match i with
  | .sw _ b imm => StoreWrites s b imm 1 j
  | .fsw _ b imm => StoreWrites s b imm 1 j
  | .psw _ b imm => StoreWrites s b imm 2 j
  | .vrampa a _ _ d => RampWrites s a d j
  | .vrampm a b c d =>
    RampWrites s a d j ∧ Finite (s.readF b) ∧ Finite (s.readF c) ∧ (s.readF b).msb = (s.readF c).msb
  | .iir2di a b c d => FilterWrites s 10 5 4 a b c d j
  | .iir2diMacc a b c d => FilterWrites s 10 5 4 a b c d j
  | .iir2dii a b c d => FilterWrites s 10 5 2 a b c d j
  | .iir2diiMacc a b c d => FilterWrites s 10 5 2 a b c d j
  | .iir1ap a b c d => FilterWrites s 4 2 1 a b c d j
  | .iir1apMacc a b c d => FilterWrites s 4 2 1 a b c d j
  | .nop | .halt | .li _ _ | .lui _ _ | .addi _ _ _ | .ori _ _ _ | .add _ _ _ | .sub _ _ _ | .and _ _ _
  | .or _ _ _ | .xor _ _ _ | .slt _ _ _ | .sltu _ _ _ | .j _ | .beqz _ _ | .bnez _ _ | .lw _ _ _ | .flw _ _ _
  | .plw _ _ _ | .pldd _ _ _ | .fadd _ _ _ | .fsub _ _ _ | .fmul _ _ _ | .fmvrf _ _ | .fmvfr _ _
  | .fcvtsw _ _ | .padd _ _ _ | .pneg _ _ | .psubi _ _ _ | .pmask _ _ _ | .pwrap _ _ _ _ | .prefl _ _ _
  | .pint _ _ | .pfrac _ _ | .pge _ _ _ | .pmov _ _ | .pfromf _ _ | .wlk _ _ _ _ => False

/-! ## A filter kernel as a recurrence over a list of inputs (R222 to R224) -/

/-- The history before element `k` of the inputs `x`. -/
def kernelHistory {H : Type} (kernel : Word → H → Word × H) (x : Nat → Word) (start : H) : Nat → H
  | 0 => start
  | k + 1 => (kernel (x k) (kernelHistory kernel x start k)).2

/-- The output of element `k` of the inputs `x`. -/
def kernelOutput {H : Type} (kernel : Word → H → Word × H) (x : Nat → Word) (start : H) (k : Nat) : Word :=
  (kernel (x k) (kernelHistory kernel x start k)).1

/-! ## Runs of one instruction -/

/-- `n` performances of one instruction in a row, stopping where one answers no next state. -/
def execTimes (i : Instr) : Nat → State → Result
  | 0, s => .next s
  | n + 1, s =>
    match exec i s with
    | .next t => execTimes i n t
    | stop => stop

end Sys2Proof.Machine
end

