-- ==== Sys2Proof/Certificates/Slice0/Obligations.lean ====
section
/-! DEFINITION. The statements for the provers, from the numbered rules of spec/. `Executes w i s post` says that
the word `w` decodes to the instruction `i` and that `exec i s` ANSWERS A NEXT STATE `t` with `post s t`; `OnlyR`,
`OnlyF`, `OnlyP`, `OnlyPc` and `OnlyDmem` say what changed and that nothing else did (Sys2Proof/Safety.lean). -/

open Sys2Proof Sys2Proof.Machine

/-! ## Encoding -/

/-- Decode and encode agree on every well-formed instruction (30_encoding.md R101 to R106). -/
def Obligations.DecodeOfEncode : Prop := ∀ i : Instr, i.wellFormed = true → decode (encode i) = .instr i

/-- Each word has one meaning: what it decodes to is well formed and encodes back to it (R107). -/
def Obligations.EncodeOfDecode : Prop :=
  ∀ (w : Word) (i : Instr), decode w = .instr i → encode i = w ∧ i.wellFormed = true

/-- A word is an instruction of a row exactly when it matches the row's mask and pattern, and no word matches two
rows (R106). -/
def Obligations.DecodeAgreesWithOpcodeTable : Prop :=
  (∀ (w : Word) (row : OpcodeRow), row ∈ opcodeTable →
    (w &&& row.mask = row.pattern ↔ ∃ i, decode w = .instr i ∧ opcodeRow i = row)) ∧
  ∀ (w : Word) (x y : OpcodeRow), x ∈ opcodeTable → y ∈ opcodeTable →
    w &&& x.mask = x.pattern → w &&& y.mask = y.pattern → x = y

/-- The worked example of R110, and one word of each family, from the encodings of 95_test_vectors.md. -/
def Obligations.WrittenWordsDecode : Prop :=
  formatR 0x1C#6 1#4 0#4 1#4 0#4 0#10 = 0x70404000#32 ∧ decode 0x70404000#32 = .instr (.wlk 1#4 0#3 1#4 0#4) ∧
  formatU 0x0A#6 3#4 (BitVec.ofInt 22 (-5)) = 0x28FFFFFB#32 ∧ decode 0x28FFFFFB#32 = .instr (.bnez 3#4 (-5)) ∧
  decode 0x04000000#32 = .instr .halt ∧ decode 0x10CFFFFF#32 = .instr (.addi 3#4 3#4 (-1)) ∧
  decode 0x203FFFFD#32 = .instr (.j (-3)) ∧ decode 0x48400020#32 = .instr (.pldd 1#3 0#4 32) ∧
  decode 0x6001D804#32 = .instr (.pwrap 0#3 0#3 7#4 6#4) ∧ decode 0x5048C002#32 = .instr (.fmul 1#4 2#4 3#4) ∧
  decode 0x80449001#32 = .instr (.vrampm 1#4 1#4 2#4 4#4) ∧
  decode 0x9185D004#32 = .instr (.iir2diMacc 6#4 1#4 7#4 4#4)

/-- A word that matches no row is illegal and executing it raises `ILLEGAL_INSTR` with the word recorded; every
word is either an instruction of a row or illegal; the all-zero word is `NOP`, the all-ones word illegal (R107). -/
def Obligations.UnmatchedWordIsIllegal : Prop :=
  (∀ s : State, s.pc.toNat < s.cfg.imemWords →
    (∀ row ∈ opcodeTable, s.imemWord s.pc.toNat &&& row.mask ≠ row.pattern) →
    ∃ t, instructionStep s = .next t ∧ FaultTaken .illegalInstr (s.imemWord s.pc.toNat) s t) ∧
  (∀ w : Word, (∃ row ∈ opcodeTable, w &&& row.mask = row.pattern) ↔ ¬ ∃ why, decode w = .illegal why) ∧
  decode 0#32 = .instr .nop ∧ ∃ why, decode 0xFFFFFFFF#32 = .illegal why

/-! ## The machine as a whole -/

/-- A step while running is the cycle of R130: the fetch check, the decode, then `exec` of the instruction that the
word at `PC` decodes to; where a STOP is pending, its effect follows that cycle (R38; the queue of pending writes is
the model's, log 9, log 22). A write of `CTRL.STEP` while stopped with no fault performs the cycle once. A stopped
machine that no agent touches stays as it is: that idle step is the model's form of the stopped state, in which no
instruction executes and all state survives (R312; log 8). -/
def Obligations.StepRunsDecodedInstruction : Prop :=
  ∀ s : State, s.cfg.legal = true →
    CycleFrom s (instructionStep s) ∧
    (s.turns = [] → s.run = true →
      step s = andThen (instructionStep { s with pendingCtrl := [] }) (finishStops s.pendingCtrl)) ∧
    (s.turns = [] → s.run = true → s.pendingCtrl = [] → s.pc.toNat < s.cfg.imemWords →
      (∀ i, decode (s.imemWord s.pc.toNat) = .instr i → step s = exec i s) ∧
      (∀ why, decode (s.imemWord s.pc.toNat) = .illegal why →
        ∃ t, step s = .next t ∧ FaultTaken .illegalInstr (s.imemWord s.pc.toNat) s t)) ∧
    (s.turns = [] → s.run = true → s.pendingCtrl = [] → s.cfg.imemWords ≤ s.pc.toNat →
      ∃ t, step s = .next t ∧ FaultTaken .fetchRange s.pc s t) ∧
    (s.turns = [] → s.run = false → step s = .next s) ∧
    ∀ rest, s.turns = .hostWrite 4 4 2#32 :: rest → s.run = false → s.faulted = false →
      CycleFrom { s with turns := rest, halted := false } (step s)

/-- A step takes the first turn that the state lists, so host accesses and reset fall between two instructions: the
model's form of the interleaving of R82 (the model's choice, log 4), with a turn for a pending STOP to take effect where no
instruction is in progress (log 22). -/
def Obligations.StepTakesFirstTurn : Prop :=
  ∀ (s : State) (rest : List Turn), s.cfg.legal = true →
    (s.turns = .sequencer :: rest → s.run = true → s.pendingCtrl = [] →
      CycleFrom { s with turns := rest } (step s)) ∧
    (s.turns = .sequencer :: rest → s.run = true →
      step s = andThen (instructionStep { s with turns := rest, pendingCtrl := [] }) (finishStops s.pendingCtrl)) ∧
    (s.turns = .sequencer :: rest → s.run = false → step s = .next { s with turns := rest }) ∧
    (∀ width offset, s.turns = .hostRead width offset :: rest →
      step s = hostRead width offset { s with turns := rest }) ∧
    (∀ width offset v, s.turns = .hostWrite width offset v :: rest →
      step s = hostWrite width offset v { s with turns := rest }) ∧
    (s.turns = .stopTakesEffect :: rest → step s = takePendingStops { s with turns := rest }) ∧
    (s.turns = .reset :: rest → step s = .next (resetMachine { s with turns := rest })) ∧
    (s.turns = .resetDuringInstruction :: rest → step s = .next (resetDuringInstruction { s with turns := rest }))

/-- Faults are precise (R132, R303): a cycle that ends with a fault changed only the fault record, whichever
instruction, fetch or decode raised it. -/
def Obligations.FaultsArePrecise : Prop :=
  ∀ s t : State, s.faulted = false → t.faulted = true →
    (instructionStep s = .next t ∨ ∃ i, exec i s = .next t) → ∃ cause info, FaultTaken cause info s t

/-- No instruction stops the model: in every state every instruction answers a next state (R130: every step
completes). -/
def Obligations.EveryInstructionCompletes : Prop := ∀ (i : Instr) (s : State), ∃ t, exec i s = .next t

/-- No instruction reaches command memory, the interrupt enables or the parameters (R36, R70, R307). -/
def Obligations.InstructionsReachNothingOutside : Prop :=
  ∀ (i : Instr) (s t : State), exec i s = .next t → OutsideUntouched s t

/-- Of the status bits, the fault record and the interrupt registers, an instruction that takes no fault changes
none, unless it is `HALT` (R34, R42, R134). -/
def Obligations.OnlyHaltAndFaultsTouchStatus : Prop :=
  ∀ (i : Instr) (s t : State), s.faulted = false → exec i s = .next t → t.faulted = false → i ≠ .halt →
    SameControl s t

/-- Every step of the whole machine keeps the invariant: legal parameters, canonical memories that list only words
that exist, RUN, FAULT and HALTED never two of them 1, a fault record that is 0 without a fault and holds one of
the causes 1 to 10 with one (R39, R41, R70), and writes of `CTRL` pending only while running, each for its STOP (R38;
log 9). -/
def Obligations.InvKeptByStep : Prop := ∀ s t : State, Inv s → step s = .next t → Inv t

/-- The invariant holds right after reset, whatever legal parameters and canonical memory contents (R340). The
parameters and the contents of `State.reset` itself are the model's choices (log 1, log 2). -/
def Obligations.InvAtReset : Prop :=
  Inv State.reset ∧
  ∀ (cfg : Params) (imem dmem : Memory), cfg.legal = true → imem.wf = true → dmem.wf = true →
    imem.within cfg.imemWords = true → dmem.within cfg.dmemWords = true → Inv (State.resetWith cfg imem dmem)

/-- What reset leaves from any state (R340): every register, `PC` and CSR 0, stopped, and the memories as they
were; but where it abandons an instruction in progress, every word of that instruction's target region (its store
address, its vector target, its descriptor's history words: `WritesWord`) is a free word of the model's, and every
byte outside that region is as it was (log 6, log 17). -/
def Obligations.ResetFromAnyState : Prop :=
  ∀ (s : State) (rest : List Turn), s.cfg.legal = true →
    (s.turns = .reset :: rest ∨ s.turns = .resetDuringInstruction :: rest) →
    ∃ t, step s = .next t ∧
      (∀ k, t.readR k = 0#32) ∧ (∀ k, t.readF k = 0#32) ∧ (∀ k, t.readP k = 0#64) ∧ t.pc = 0#32 ∧
      t.run = false ∧ t.faulted = false ∧ t.halted = false ∧ t.cause = 0#8 ∧ t.fpc = 0#32 ∧ t.finfo = 0#32 ∧
      t.irqen = 0#2 ∧ t.irqstat = 0#2 ∧ t.cfg = s.cfg ∧ SameImem s t ∧ t.turns = rest ∧
      t.pendingCtrl = [] ∧
      (s.turns = .reset :: rest → SameDmem s t) ∧
      (s.turns = .resetDuringInstruction :: rest →
        (∀ a, a / 4 ∉ abandonedWords s → t.dmemByte a = s.dmemByte a) ∧
        (∀ j ∈ abandonedWords s, ∃ k, t.dmemWord j = Config.abandonedWord k) ∧
        (∀ j ∈ abandonedWords s, ∃ i, decode (s.imemWord s.pc.toNat) = .instr i ∧ j ∈ targetWords i s) ∧
        (∀ i, decode (s.imemWord s.pc.toNat) = .instr i → s.pc.toNat < s.cfg.imemWords →
          (storesHere i s = true → ∀ j ∈ targetWords i s, ∃ k, t.dmemWord j = Config.abandonedWord k) ∧
          (∀ j, WritesWord i s j → ∃ k, t.dmemWord j = Config.abandonedWord k) ∧
          (∀ byte, ¬ WritesWord i s (byte / 4) → t.dmemByte byte = s.dmemByte byte)) ∧
        (s.cfg.imemWords ≤ s.pc.toNat ∨ (∃ why, decode (s.imemWord s.pc.toNat) = .illegal why) → SameDmem s t))

/-- `R[0]` is hard-wired: it reads 0 to an instruction and to the host, and a write of it by either changes no
register (R31). -/
def Obligations.HardwiredZero : Prop :=
  ∀ s : State, s.readR 0#4 = 0#32 ∧ (∀ v, SameR s (s.writeR 0#4 v)) ∧
    (s.run = false → hostRead 4 0x100 s = .next { s with hostData := 0#32 }) ∧
    (s.run = false → ∀ v, hostWrite 4 0x100 v s = .next s) ∧
    ∀ i t, exec i s = .next t → t.readR 0#4 = 0#32

/-! ## Integer, control and memory instructions -/

/-- `LI`, `LUI`, `ADDI`, `ORI` (R135 to R138), in every state, for every register and every immediate field. -/
def Obligations.IntegerImmediates : Prop :=
  ∀ (s : State) (a b : RReg) (i18 : BitVec 18) (i22 : BitVec 22),
    Executes (formatU 0x02#6 a i22) (.li a i22.toInt) s (OnlyR a (i22.signExtend 32)) ∧
    Executes (formatU 0x03#6 a i22) (.lui a i22.toNat) s (OnlyR a (i22 ++ 0#10)) ∧
    Executes (formatI 0x04#6 a b i18) (.addi a b i18.toInt) s
      (OnlyR a (BitVec.ofInt 32 ((s.readR b).toNat + (i18.signExtend 32).toInt))) ∧
    Executes (formatI 0x05#6 a b i18) (.ori a b i18.toNat) s (OnlyR a (s.readR b ||| i18.setWidth 32))

/-- `ADD`, `SUB`, `AND`, `OR`, `XOR`, `SLT`, `SLTU` (R139 to R145), in every state, for all registers. -/
def Obligations.IntegerAlu : Prop :=
  ∀ (s : State) (a b c : RReg),
    Executes (formatR 0x06#6 a b c 0#4 0#10) (.add a b c) s
      (OnlyR a (BitVec.ofNat 32 ((s.readR b).toNat + (s.readR c).toNat))) ∧
    Executes (formatR 0x06#6 a b c 0#4 1#10) (.sub a b c) s
      (OnlyR a (BitVec.ofInt 32 ((s.readR b).toNat - (s.readR c).toNat))) ∧
    Executes (formatR 0x06#6 a b c 0#4 2#10) (.and a b c) s (OnlyR a (s.readR b &&& s.readR c)) ∧
    Executes (formatR 0x06#6 a b c 0#4 3#10) (.or a b c) s (OnlyR a (s.readR b ||| s.readR c)) ∧
    Executes (formatR 0x06#6 a b c 0#4 4#10) (.xor a b c) s (OnlyR a (s.readR b ^^^ s.readR c)) ∧
    Executes (formatR 0x06#6 a b c 0#4 5#10) (.slt a b c) s
      (OnlyR a (if (s.readR b).toInt < (s.readR c).toInt then 1#32 else 0#32)) ∧
    Executes (formatR 0x06#6 a b c 0#4 6#10) (.sltu a b c) s
      (OnlyR a (if (s.readR b).toNat < (s.readR c).toNat then 1#32 else 0#32))

/-- `J`, `BEQZ`, `BNEZ` (R146 to R148): the target counts from the branch itself, modulo 2^32, and is not checked. -/
def Obligations.ControlTransfer : Prop :=
  ∀ (s : State) (a : RReg) (i22 : BitVec 22),
    let target := BitVec.ofInt 32 (s.pc.toNat + (i22.signExtend 32).toInt)
    Executes (formatU 0x08#6 0#4 i22) (.j i22.toInt) s (OnlyPc target) ∧
    Executes (formatU 0x09#6 a i22) (.beqz a i22.toInt) s
      (OnlyPc (if s.readR a = 0#32 then target else s.pc + 1#32)) ∧
    Executes (formatU 0x0A#6 a i22) (.bnez a i22.toInt) s
      (OnlyPc (if s.readR a = 0#32 then s.pc + 1#32 else target))

/-- `NOP` (R133), and its corner case: a command memory of zeros runs from `PC` to the end of the memory and faults
there with `FETCH_RANGE`. -/
def Obligations.NopRunsToFetchFault : Prop :=
  (∀ s : State, Executes 0x00000000#32 .nop s (OnlyPc (s.pc + 1#32))) ∧
  ∀ s : State, s.cfg.legal = true → s.turns = [] → s.run = true → s.pendingCtrl = [] →
    s.pc.toNat ≤ s.cfg.imemWords →
    (∀ j, j < s.cfg.imemWords → s.imemWord j = 0#32) →
    ∃ t, Host.Core.run Sys2Proof.core (s.cfg.imemWords - s.pc.toNat + 1) s = .next t ∧
      FaultTaken .fetchRange (BitVec.ofNat 32 s.cfg.imemWords)
        { s with pc := BitVec.ofNat 32 s.cfg.imemWords } t

/-- `HALT` (R134): it stops the sequencer, records the halt event and moves on; a `CTRL.STEP` performs it the same
way, and a later START resumes at the instruction after it. -/
def Obligations.HaltStopsAndResumes : Prop :=
  ∀ s : State,
    let halted : State → State → Prop := fun s t => t.run = false ∧ t.halted = true ∧ t.irqstat = s.irqstat ||| 1#2 ∧
      t.pc = s.pc + 1#32 ∧ SameData s t ∧ t.faulted = s.faulted ∧ t.cause = s.cause ∧ t.fpc = s.fpc ∧
      t.finfo = s.finfo ∧ OutsideUntouched s t
    Executes 0x04000000#32 .halt s halted ∧
    (s.run = false → s.faulted = false → s.pc.toNat < s.cfg.imemWords → s.imemWord s.pc.toNat = 0x04000000#32 →
      ∃ t, hostWrite 4 4 2#32 s = .next t ∧ halted s t) ∧
    ∀ t, exec .halt s = .next t → s.faulted = false →
      ∃ u, hostWrite 4 4 1#32 t = .next u ∧ u.run = true ∧ u.halted = false ∧ u.pc = s.pc + 1#32

/-- `LW`, `FLW`, `PLW` (R149, R150, R152, R154) at the effective address `ea`: in range they load, the pattern
unchanged, the word at `ea` in the low half of a pair; out of range they take `DMEM_RANGE` with the first word
address out of range. -/
def Obligations.Loads : Prop :=
  ∀ (s : State) (a b : RReg) (f : FReg) (p : PReg) (i18 : BitVec 18),
    let ea := effAddr s b i18.toInt
    ea = (BitVec.ofInt 32 ((s.readR b).toNat + (i18.signExtend 32).toInt)).toNat ∧
    (ea + 1 ≤ s.cfg.dmemWords →
      Executes (formatI 0x0C#6 a b i18) (.lw a b i18.toInt) s (OnlyR a (s.dmemWord ea)) ∧
      Executes (formatI 0x0E#6 f b i18) (.flw f b i18.toInt) s (OnlyF f (s.dmemWord ea))) ∧
    (ea + 2 ≤ s.cfg.dmemWords →
      Executes (formatI 0x10#6 (0#1 ++ p) b i18) (.plw p b i18.toInt) s
        (OnlyP p (s.dmemWord (ea + 1) ++ s.dmemWord ea))) ∧
    (s.cfg.dmemWords < ea + 1 →
      Executes (formatI 0x0C#6 a b i18) (.lw a b i18.toInt) s (FaultTaken .dmemRange (BitVec.ofNat 32 ea)) ∧
      Executes (formatI 0x0E#6 f b i18) (.flw f b i18.toInt) s (FaultTaken .dmemRange (BitVec.ofNat 32 ea))) ∧
    (s.cfg.dmemWords < ea + 2 →
      Executes (formatI 0x10#6 (0#1 ++ p) b i18) (.plw p b i18.toInt) s
        (FaultTaken .dmemRange (BitVec.ofNat 32 (if s.cfg.dmemWords ≤ ea then ea else ea + 1))))

/-- `SW`, `FSW`, `PSW` (R149, R151, R153, R155) at the effective address `ea`: in range they store the pattern
unchanged and change no other byte of memory; out of range they take `DMEM_RANGE` and write neither word. -/
def Obligations.Stores : Prop :=
  ∀ (s : State) (a b : RReg) (f : FReg) (p : PReg) (i18 : BitVec 18),
    let ea := effAddr s b i18.toInt
    ea = (BitVec.ofInt 32 ((s.readR b).toNat + (i18.signExtend 32).toInt)).toNat ∧
    (ea + 1 ≤ s.cfg.dmemWords →
      Executes (formatI 0x0D#6 a b i18) (.sw a b i18.toInt) s
        (fun s t => OnlyDmem s t ∧ SameDmemOutside ea 1 s t ∧ t.dmemWord ea = s.readR a) ∧
      Executes (formatI 0x0F#6 f b i18) (.fsw f b i18.toInt) s
        (fun s t => OnlyDmem s t ∧ SameDmemOutside ea 1 s t ∧ t.dmemWord ea = s.readF f)) ∧
    (ea + 2 ≤ s.cfg.dmemWords →
      Executes (formatI 0x11#6 (0#1 ++ p) b i18) (.psw p b i18.toInt) s
        (fun s t => OnlyDmem s t ∧ SameDmemOutside ea 2 s t ∧
          t.dmemWord ea = (s.readP p).extractLsb' 0 32 ∧ t.dmemWord (ea + 1) = (s.readP p).extractLsb' 32 32)) ∧
    (s.cfg.dmemWords < ea + 1 →
      Executes (formatI 0x0D#6 a b i18) (.sw a b i18.toInt) s (FaultTaken .dmemRange (BitVec.ofNat 32 ea)) ∧
      Executes (formatI 0x0F#6 f b i18) (.fsw f b i18.toInt) s (FaultTaken .dmemRange (BitVec.ofNat 32 ea))) ∧
    (s.cfg.dmemWords < ea + 2 →
      Executes (formatI 0x11#6 (0#1 ++ p) b i18) (.psw p b i18.toInt) s
        (FaultTaken .dmemRange (BitVec.ofNat 32 (if s.cfg.dmemWords ≤ ea then ea else ea + 1))))

/-! ## Scalar float -/

/-- `FADD`, `FSUB`, `FMUL`, `FMVRF`, `FMVFR`, `FCVTSW` (R271 to R276) over the primitives of R15 and R16, with the
corner cases and examples that those rules print. What R273 says of products below the smallest subnormal is not
among them: by R15 such a product may round up to it. -/
def Obligations.ScalarFloat : Prop :=
  (∀ (s : State) (a b c : FReg) (r : RReg),
    Executes (formatR 0x14#6 a b c 0#4 0#10) (.fadd a b c) s (OnlyF a (fadd (s.readF b) (s.readF c))) ∧
    Executes (formatR 0x14#6 a b c 0#4 1#10) (.fsub a b c) s (OnlyF a (fsub (s.readF b) (s.readF c))) ∧
    Executes (formatR 0x14#6 a b c 0#4 2#10) (.fmul a b c) s (OnlyF a (fmul (s.readF b) (s.readF c))) ∧
    Executes (formatR 0x14#6 a r 0#4 0#4 8#10) (.fmvrf a r) s (OnlyF a (s.readR r)) ∧
    Executes (formatR 0x14#6 r b 0#4 0#4 9#10) (.fmvfr r b) s (OnlyR r (s.readF b)) ∧
    Executes (formatR 0x14#6 a r 0#4 0#4 10#10) (.fcvtsw a r) s (OnlyF a (intToFloat (s.readR r).toInt))) ∧
  fadd 0x7F800000#32 0xFF800000#32 = 0x7FC00000#32 ∧ fadd 0#32 0x80000000#32 = 0#32 ∧
  fadd 0x80000000#32 0x80000000#32 = 0x80000000#32 ∧ fadd 0x7F7FFFFF#32 0x7F7FFFFF#32 = 0x7F800000#32 ∧
  fadd 1#32 1#32 = 2#32 ∧ fadd 0x3F800000#32 0x3F000000#32 = 0x3FC00000#32 ∧
  fsub 0x7F800000#32 0x7F800000#32 = 0x7FC00000#32 ∧ fsub 0x3F800000#32 0x3E800000#32 = 0x3F400000#32 ∧
  fmul 0#32 0x7F800000#32 = 0x7FC00000#32 ∧ fmul 0x80000000#32 0x3F800000#32 = 0x80000000#32 ∧
  fmul 0xBF800000#32 0x3F000000#32 = 0xBF000000#32 ∧
  intToFloat 0x7FFFFFFF = 0x4F000000#32 ∧ intToFloat (-0x80000000) = 0xCF000000#32 ∧
  intToFloat 16777217 = 0x4B800000#32 ∧ intToFloat (-3) = 0xC0400000#32 ∧
  (∀ x : Word, Finite x → fsub x x = 0#32) ∧
  ∀ k : Int, k.natAbs ≤ 2 ^ 24 → fValue (intToFloat k) = k * 2 ^ 149

/-- The four primitives of R16 on every pair of operands: the rounded exact result of finite operands, the zero
sums, the canonical NaN for every NaN operand and invalid operation, and infinities with the usual signs (the last
as IEEE 754 has them, log 13). -/
def Obligations.FloatPrimitives : Prop :=
  ∀ x y : Word,
    (Finite x → Finite y → fValue x + fValue y ≠ 0 →
      fadd x y = roundNearest (decide (fValue x + fValue y < 0)) (fValue x + fValue y).natAbs 1) ∧
    (Finite x → Finite y → fValue x + fValue y = 0 →
      fadd x y = if x = 0x80000000#32 ∧ y = 0x80000000#32 then 0x80000000#32 else 0#32) ∧
    fsub x y = fadd x (y ^^^ 0x80000000#32) ∧
    (Finite x → Finite y → fmul x y = roundNearest (x.msb != y.msb) (fUnits x * fUnits y) (2 ^ 149)) ∧
    (Finite x → Finite y → fUnits y ≠ 0 →
      fdiv x y = roundNearest (x.msb != y.msb) (fUnits x * 2 ^ 149) (fUnits y)) ∧
    (Finite x → fUnits x ≠ 0 → fUnits y = 0 → fdiv x y = if x.msb = y.msb then 0x7F800000#32 else 0xFF800000#32) ∧
    (isNaN x = true ∨ isNaN y = true → fadd x y = 0x7FC00000#32 ∧ fsub x y = 0x7FC00000#32 ∧
      fmul x y = 0x7FC00000#32 ∧ fdiv x y = 0x7FC00000#32) ∧
    (isInf x = true → isInf y = true → fadd x y = (if x = y then x else 0x7FC00000#32) ∧
      fmul x y = (if x = y then 0x7F800000#32 else 0xFF800000#32) ∧ fdiv x y = 0x7FC00000#32) ∧
    (isInf x = true → Finite y → fadd x y = x ∧ fadd y x = x ∧
      fmul x y = (if fUnits y = 0 then 0x7FC00000#32 else if x.msb = y.msb then 0x7F800000#32 else 0xFF800000#32) ∧
      fmul y x = fmul x y ∧ fdiv x y = (if x.msb = y.msb then 0x7F800000#32 else 0xFF800000#32) ∧
      fdiv y x = (if x.msb = y.msb then 0#32 else 0x80000000#32)) ∧
    (fUnits x = 0 → fUnits y = 0 → fdiv x y = 0x7FC00000#32)

/-- Addition and multiplication commute on all patterns; +0 subtracted, -0 added, and 1.0 multiplied or divided by
leave every pattern that is no NaN as it is (R16, as R225 uses it). -/
def Obligations.FloatIdentities : Prop :=
  (∀ x y : Word, fadd x y = fadd y x ∧ fmul x y = fmul y x) ∧
  ∀ x : Word, isNaN x = false →
    fsub x 0#32 = x ∧ fadd x 0x80000000#32 = x ∧ fmul 0x3F800000#32 x = x ∧ fdiv x 0x3F800000#32 = x

/-- `RN32` and `RZ32` of R15, for the magnitude `num / den` units of 2^-149. Below 2^128 - 2^103 the nearest
rounding is finite, no binary32 magnitude is nearer, and of two as near it takes the even one; from there on it is
infinity. The rounding toward zero is the greatest finite magnitude that is not larger. -/
def Obligations.RoundingIsCorrect : Prop :=
  ∀ num den : Nat, 0 < den →
    (num < (2 ^ 277 - 2 ^ 252) * den →
      nearestBits num den < infBits ∧
      ∀ bits, bits < infBits →
        ((num : Int) - patternUnits (nearestBits num den) * den).natAbs ≤ ((num : Int) - patternUnits bits * den).natAbs ∧
        (((num : Int) - patternUnits (nearestBits num den) * den).natAbs =
            ((num : Int) - patternUnits bits * den).natAbs →
          bits = nearestBits num den ∨ nearestBits num den % 2 = 0)) ∧
    ((2 ^ 277 - 2 ^ 252) * den ≤ num → nearestBits num den = infBits) ∧
    truncatedBits num den < infBits ∧ patternUnits (truncatedBits num den) * den ≤ num ∧
    (∀ bits, bits < infBits → patternUnits bits * den ≤ num → bits ≤ truncatedBits num den) ∧
    ∀ negative : Bool, roundNearest negative num den = BitVec.ofBool negative ++ BitVec.ofNat 31 (nearestBits num den) ∧
      roundToZero negative num den = BitVec.ofBool negative ++ BitVec.ofNat 31 (truncatedBits num den)

/-- The float tests of R17: NaN and infinity by their fields, the three ordered comparisons on every pair of
operands (false with a NaN; of finite ones by value, so -0 equals +0; each infinity beyond every other value and
equal to itself), `|x|`, and the exact conversion of small integers. -/
def Obligations.FloatTests : Prop :=
  (∀ x : Word,
    (isNaN x = true ↔ x.extractLsb' 23 8 = 0xFF#8 ∧ x.extractLsb' 0 23 ≠ 0#23) ∧
    (isInf x = true ↔ x.extractLsb' 23 8 = 0xFF#8 ∧ x.extractLsb' 0 23 = 0#23) ∧
    fabs x = x &&& 0x7FFFFFFF#32) ∧
  (∀ x y : Word,
    (Finite x → Finite y →
      (flt x y = true ↔ fValue x < fValue y) ∧ (fle x y = true ↔ fValue x ≤ fValue y) ∧
      (fge x y = true ↔ fValue x ≥ fValue y)) ∧
    (isNaN x = true ∨ isNaN y = true → flt x y = false ∧ fle x y = false ∧ fge x y = false)) ∧
  (∀ y : Word, isNaN y = false →
    fle y 0x7F800000#32 = true ∧ fge 0x7F800000#32 y = true ∧ flt 0x7F800000#32 y = false ∧
    (flt y 0x7F800000#32 = true ↔ y ≠ 0x7F800000#32) ∧ (fle 0x7F800000#32 y = true ↔ y = 0x7F800000#32) ∧
    (fge y 0x7F800000#32 = true ↔ y = 0x7F800000#32) ∧
    fle 0xFF800000#32 y = true ∧ fge y 0xFF800000#32 = true ∧ flt y 0xFF800000#32 = false ∧
    (flt 0xFF800000#32 y = true ↔ y ≠ 0xFF800000#32) ∧ (fle y 0xFF800000#32 = true ↔ y = 0xFF800000#32) ∧
    (fge 0xFF800000#32 y = true ↔ y = 0xFF800000#32)) ∧
  ∀ k : Int, k.natAbs ≤ 2 ^ 24 → Finite (intToFloat k) ∧ fValue (intToFloat k) = k * 2 ^ 149

/-! ## Fixed64 phases -/

/-- `PADD`, `PNEG`, `PSUBI`, `PREFL`, `PMOV` (R173, R174, R175, R178, R182): exact integer arithmetic modulo 2^64
(R169), in every state. -/
def Obligations.Fixed64Arithmetic : Prop :=
  ∀ (s : State) (a b c : PReg) (r : RReg),
    Executes (formatR 0x18#6 (0#1 ++ a) (0#1 ++ b) (0#1 ++ c) 0#4 0#10) (.padd a b c) s
      (OnlyP a (BitVec.ofNat 64 ((s.readP b).toNat + (s.readP c).toNat))) ∧
    Executes (formatR 0x18#6 (0#1 ++ a) (0#1 ++ b) 0#4 0#4 1#10) (.pneg a b) s
      (OnlyP a (BitVec.ofInt 64 (0 - (s.readP b).toNat))) ∧
    Executes (formatR 0x18#6 (0#1 ++ a) (0#1 ++ b) r 0#4 2#10) (.psubi a b r) s
      (OnlyP a (BitVec.ofInt 64 ((s.readP b).toInt - (s.readR r).toInt * 2 ^ 32))) ∧
    Executes (formatR 0x18#6 (0#1 ++ a) (0#1 ++ b) r 0#4 5#10) (.prefl a b r) s
      (OnlyP a (BitVec.ofInt 64 (2 * (s.readR r).toInt * 2 ^ 32 - (s.readP b).toInt))) ∧
    Executes (formatR 0x18#6 (0#1 ++ a) (0#1 ++ b) 0#4 0#4 9#10) (.pmov a b) s (OnlyP a (s.readP b))

/-- `PMASK` (R176), and its corner case: with the mask of a power-of-two table length the result is the phase
modulo that length, for negative phases too. -/
def Obligations.MaskIsModulo : Prop :=
  ∀ (s : State) (a b : PReg) (c : RReg),
    Executes (formatR 0x18#6 (0#1 ++ a) (0#1 ++ b) c 0#4 3#10) (.pmask a b c) s
      (OnlyP a (((s.readP b).extractLsb' 32 32 &&& s.readR c) ++ (s.readP b).extractLsb' 0 32)) ∧
    ∀ k ≤ 31, s.readR c = BitVec.ofNat 32 (2 ^ k - 1) →
      ∃ t, exec (.pmask a b c) s = .next t ∧ (t.readP a).toInt = (s.readP b).toInt % (2 ^ k * 2 ^ 32)

/-- `PINT` (R179) and `PGE` (R181): the integer part is the floor of the phase's value; the comparison is signed on
the full 64 bits. -/
def Obligations.PhaseViews : Prop :=
  ∀ (s : State) (a c : RReg) (b : PReg),
    Executes (formatR 0x18#6 a (0#1 ++ b) 0#4 0#4 6#10) (.pint a b) s (OnlyR a ((s.readP b).extractLsb' 32 32)) ∧
    ((s.readP b).extractLsb' 32 32).toInt = (s.readP b).toInt / 2 ^ 32 ∧
    Executes (formatR 0x18#6 a (0#1 ++ b) c 0#4 8#10) (.pge a b c) s
      (OnlyR a (if (s.readP b).toInt ≥ (s.readR c).toInt * 2 ^ 32 then 1#32 else 0#32))

/-- `PWRAP` (R177) with loop `[S, E)`: `LOOP_RANGE` when the span is not positive; else a phase at or past `E`
goes to the start plus its overshoot modulo the span, inside the loop, and a phase below `E` is unchanged. -/
def Obligations.PhaseWrap : Prop :=
  ∀ (s : State) (a b : PReg) (c d : RReg),
    let word := formatR 0x18#6 (0#1 ++ a) (0#1 ++ b) c d 4#10
    let start := (s.readR c).toInt
    let stop := (s.readR d).toInt
    let v := (s.readP b).toInt
    (stop ≤ start → Executes word (.pwrap a b c d) s (FaultTaken .loopRange (s.readR c))) ∧
    (start < stop → v < stop * 2 ^ 32 → Executes word (.pwrap a b c d) s (OnlyP a (s.readP b))) ∧
    (start < stop → stop * 2 ^ 32 ≤ v →
      Executes word (.pwrap a b c d) s (fun s t =>
        OnlyP a (BitVec.ofInt 64 (start * 2 ^ 32 + (v - stop * 2 ^ 32) % ((stop - start) * 2 ^ 32))) s t ∧
        (t.readP a).toInt = start * 2 ^ 32 + (v - stop * 2 ^ 32) % ((stop - start) * 2 ^ 32) ∧
        start * 2 ^ 32 ≤ (t.readP a).toInt ∧ (t.readP a).toInt < stop * 2 ^ 32))

/-- `PFRAC` (R180): the fraction rounded toward zero, always in [0, 1): the greatest finite binary32 value that is
not above it, exact below 2^24. In units of 2^-149 a fraction `F` is `F * 2^117`. -/
def Obligations.FracFloat : Prop :=
  ∀ (s : State) (a : FReg) (b : PReg),
    let fraction := ((s.readP b).extractLsb' 0 32).toNat
    Executes (formatR 0x18#6 a (0#1 ++ b) 0#4 0#4 7#10) (.pfrac a b) s (fun s t =>
      OnlyF a (t.readF a) s t ∧ Finite (t.readF a) ∧ (t.readF a).msb = false ∧
      0 ≤ fValue (t.readF a) ∧ fValue (t.readF a) < 2 ^ 149 ∧ fValue (t.readF a) ≤ fraction * 2 ^ 117 ∧
      (∀ y : Word, Finite y → fValue y ≤ fraction * 2 ^ 117 → fValue y ≤ fValue (t.readF a)) ∧
      (fraction < 2 ^ 24 → fValue (t.readF a) = fraction * 2 ^ 117) ∧
      (fraction = 0 → t.readF a = 0#32) ∧ (fraction = 0xFFFFFFFF → t.readF a = 0x3F7FFFFF#32))

/-- `PLDD` (R171) and `PFROMF` (R172): the checks in their order with what each records, and the floor of R170 of
an accepted value; the two agree on a value that both formats hold. -/
def Obligations.FixedConversions : Prop :=
  ∀ (s : State) (a : PReg) (b : RReg) (f : FReg) (i18 : BitVec 18),
    let ea := effAddr s b i18.toInt
    let pldd := formatI 0x12#6 (0#1 ++ a) b i18
    let d := s.dmemWord (ea + 1) ++ s.dmemWord ea
    let dOk := dNotFinite d = false ∧ -(2 ^ 31 * 2 ^ 1074) ≤ dValue d ∧ dValue d < 2 ^ 31 * 2 ^ 1074
    let pfromf := formatR 0x18#6 (0#1 ++ a) f 0#4 0#4 10#10
    let x := s.readF f
    let xOk := Finite x ∧ -(2 ^ 31 * 2 ^ 149) ≤ fValue x ∧ fValue x < 2 ^ 31 * 2 ^ 149
    ea = (BitVec.ofInt 32 ((s.readR b).toNat + (i18.signExtend 32).toInt)).toNat ∧
    (s.cfg.dmemWords < ea + 2 → Executes pldd (.pldd a b i18.toInt) s
      (FaultTaken .dmemRange (BitVec.ofNat 32 (if s.cfg.dmemWords ≤ ea then ea else ea + 1)))) ∧
    (ea + 2 ≤ s.cfg.dmemWords → ¬ dOk → Executes pldd (.pldd a b i18.toInt) s
      (FaultTaken .fxRange (s.dmemWord (ea + 1)))) ∧
    (ea + 2 ≤ s.cfg.dmemWords → dOk → Executes pldd (.pldd a b i18.toInt) s
      (OnlyP a (BitVec.ofInt 64 (dValue d * 2 ^ 32 / 2 ^ 1074)))) ∧
    (¬ xOk → Executes pfromf (.pfromf a f) s (FaultTaken .fxRange x)) ∧
    (xOk → Executes pfromf (.pfromf a f) s (OnlyP a (BitVec.ofInt 64 (fValue x * 2 ^ 32 / 2 ^ 149)))) ∧
    (fValue x * 2 ^ 925 = dValue d → fValue x * 2 ^ 32 / 2 ^ 149 = dValue d * 2 ^ 32 / 2 ^ 1074)

/-- `fx` of a real `num / den` in [-2^31, 2^31) (R170): the greatest multiple of 2^-32 that is not above it, its
integer part the floor and its fractional part the truncated fraction. -/
def Obligations.FixedIsFloor : Prop :=
  ∀ (num : Int) (den : Nat), 0 < den → -(2 ^ 31 * (den : Int)) ≤ num → num < 2 ^ 31 * (den : Int) →
    let p := fixedOfReal num den
    p.toInt * den ≤ num * 2 ^ 32 ∧ num * 2 ^ 32 < (p.toInt + 1) * den ∧
    (p.extractLsb' 32 32).toInt = num / den ∧ ((p.extractLsb' 0 32).toNat : Int) = num % den * 2 ^ 32 / den

/-- `n` executions of `PADD p0, p0, p1` from `P[0]` = 0 leave exactly `n` times `P[1]`, modulo 2^64, and its
fraction rounds to `RZ32` of the exact fraction (R183); nothing else changes but `PC`. -/
def Obligations.RepeatedPadd : Prop :=
  ∀ (n : Nat) (s : State), s.readP 0#3 = 0#64 →
    ∃ t, execTimes (.padd 0#3 0#3 1#3) n s = .next t ∧
      t.readP 0#3 = BitVec.ofNat 64 (n * (s.readP 1#3).toNat) ∧
      fracFloat (t.readP 0#3) = roundToZero false (n * (s.readP 1#3).toNat % 2 ^ 32 * 2 ^ 117) 1 ∧
      (∀ k, k ≠ 0#3 → t.readP k = s.readP k) ∧ t.pc = s.pc + BitVec.ofNat 32 n ∧
      SameR s t ∧ SameF s t ∧ SameDmem s t ∧ SameImem s t ∧ SameControl s t

/-! ## Ramps -/

/-- `VRAMPA` (R200, R201): nothing but `PC` for count 0, `DMEM_RANGE` for a target that leaves data memory, else
every element as the formula rounds it, the last one `final` bit for bit, and no other byte changed. -/
def Obligations.AdditiveRamp : Prop :=
  ∀ (s : State) (a : RReg) (b c : FReg) (d : RReg),
    let word := formatR 0x20#6 a b c d 0#10
    let n := (s.readR d).toNat
    let t0 := (s.readR a).toNat
    let first := s.readF b
    let final := s.readF c
    (n = 0 → Executes word (.vrampa a b c d) s (OnlyPc (s.pc + 1#32))) ∧
    (0 < n → s.cfg.dmemWords < t0 + n → Executes word (.vrampa a b c d) s
      (FaultTaken .dmemRange (BitVec.ofNat 32 (max t0 s.cfg.dmemWords)))) ∧
    (0 < n → t0 + n ≤ s.cfg.dmemWords → Executes word (.vrampa a b c d) s (fun s t =>
      OnlyDmem s t ∧ SameDmemOutside t0 n s t ∧
      (∀ i, i + 1 < n → t.dmemWord (t0 + i) =
        fadd first (fdiv (fmul (intToFloat (i + 1)) (fsub final first)) (intToFloat n))) ∧
      t.dmemWord (t0 + n - 1) = final))

/-- `VRAMPM` (R200, R203, R205): the checks in their order, then each element the one before it (the clamped
initial value at the start) times the ratio, the last one the clamped final value, and no other byte changed. -/
def Obligations.MultiplicativeRamp : Prop :=
  ∀ (s : State) (a : RReg) (b c : FReg) (d : RReg),
    let word := formatR 0x20#6 a b c d 1#10
    let n := (s.readR d).toNat
    let t0 := (s.readR a).toNat
    let x0 := s.readF b
    let x1 := s.readF c
    let clamp : Word → Word := fun x =>
      if fge (x &&& 0x7FFFFFFF#32) s.cfg.rampFloor then x
      else BitVec.ofBool x.msb ++ s.cfg.rampFloor.extractLsb' 0 31
    let ratio := rampRatio s.cfg.ratio (clamp x0) (clamp x1) n
    (n = 0 → Executes word (.vrampm a b c d) s (OnlyPc (s.pc + 1#32))) ∧
    (0 < n → s.cfg.dmemWords < t0 + n → Executes word (.vrampm a b c d) s
      (FaultTaken .dmemRange (BitVec.ofNat 32 (max t0 s.cfg.dmemWords)))) ∧
    (0 < n → t0 + n ≤ s.cfg.dmemWords → ¬ (Finite x0 ∧ Finite x1) → Executes word (.vrampm a b c d) s
      (FaultTaken .rampDomain 0#32)) ∧
    (0 < n → t0 + n ≤ s.cfg.dmemWords → Finite x0 → Finite x1 → x0.msb ≠ x1.msb →
      Executes word (.vrampm a b c d) s (FaultTaken .rampSign 0#32)) ∧
    (0 < n → t0 + n ≤ s.cfg.dmemWords → Finite x0 → Finite x1 → x0.msb = x1.msb →
      Executes word (.vrampm a b c d) s (fun s t =>
        OnlyDmem s t ∧ SameDmemOutside t0 n s t ∧
        (2 ≤ n → t.dmemWord t0 = fmul (clamp x0) ratio) ∧
        (∀ i, i + 2 < n → t.dmemWord (t0 + i + 1) = fmul (t.dmemWord (t0 + i)) ratio) ∧
        t.dmemWord (t0 + n - 1) = clamp x1))

/-- `P_RATIO` (R204) of endpoints of equal sign at or above the floor: a positive finite value that is one of the
two neighbours of the exact root, the root itself where it is a binary32 value, and with the spec's default the
nearest, ties to even. The root of magnitudes `a` and `b` against `u` units: `u^n * a` against `b * 2^(149 n)`. -/
def Obligations.RatioIsFaithful : Prop :=
  ∀ (cfg : Params) (x y : Word) (n : Nat), cfg.legal = true → Finite x → Finite y → x.msb = y.msb →
    fge (fabs x) cfg.rampFloor = true → fge (fabs y) cfg.rampFloor = true → 2 ≤ n → n ≤ 2 ^ 24 →
    let r := rampRatio cfg.ratio x y n
    let a := fUnits x
    let b := fUnits y
    let u : Nat → Nat := patternUnits
    let bits := fMagBits r
    let exact : Nat → Prop := fun k => u k ^ n * a = b * 2 ^ (149 * n)
    r.msb = false ∧ Finite r ∧ 0 < bits ∧
    (exact bits ∨
      (u bits ^ n * a < b * 2 ^ (149 * n) ∧ b * 2 ^ (149 * n) < u (bits + 1) ^ n * a) ∨
      (u (bits - 1) ^ n * a < b * 2 ^ (149 * n) ∧ b * 2 ^ (149 * n) < u bits ^ n * a)) ∧
    (∀ k, k < infBits → exact k → bits = k) ∧
    (cfg.ratio = .nearest →
      b * 2 ^ (150 * n) ≤ (u bits + u (bits + 1)) ^ n * a ∧ (u (bits - 1) + u bits) ^ n * a ≤ b * 2 ^ (150 * n) ∧
      (b * 2 ^ (150 * n) = (u bits + u (bits + 1)) ^ n * a ∨ (u (bits - 1) + u bits) ^ n * a = b * 2 ^ (150 * n) →
        bits % 2 = 0))

/-- What a multiplicative ramp keeps (R206): the last element is the clamped final value, every element has the
sign bit of the initial value, and where the ratio is the exact root and every product is exact, element `i` is
`A * root^(i + 1)` exactly. -/
def Obligations.MultiplicativeRampProperties : Prop :=
  ∀ (s : State) (a : RReg) (b c : FReg) (d : RReg), s.cfg.legal = true →
    let n := (s.readR d).toNat
    let t0 := (s.readR a).toNat
    let x0 := s.readF b
    let x1 := s.readF c
    let first := clampToFloor s.cfg.rampFloor x0
    let final := clampToFloor s.cfg.rampFloor x1
    let ratio := rampRatio s.cfg.ratio first final n
    0 < n → t0 + n ≤ s.cfg.dmemWords → Finite x0 → Finite x1 → x0.msb = x1.msb →
    ∃ t, exec (.vrampm a b c d) s = .next t ∧ t.dmemWord (t0 + n - 1) = final ∧
      (∀ i, i < n → (t.dmemWord (t0 + i)).msb = x0.msb) ∧
      (fUnits ratio ^ n * fUnits first = fUnits final * 2 ^ (149 * n) →
        fUnits (fmul first ratio) * 2 ^ 149 = fUnits first * fUnits ratio →
        (∀ i, i + 2 < n → fUnits (fmul (t.dmemWord (t0 + i)) ratio) * 2 ^ 149 =
          fUnits (t.dmemWord (t0 + i)) * fUnits ratio) →
        ∀ i, i + 1 < n →
          fUnits (t.dmemWord (t0 + i)) * 2 ^ (149 * (i + 1)) = fUnits first * fUnits ratio ^ (i + 1))

/-- The first two properties of R202: an additive ramp ends at `final` bit for bit, and where `final - initial` is
finite its elements before the last rise with a difference that is not negative and fall with one that is not
positive. -/
def Obligations.AdditiveRampIsMonotone : Prop :=
  ∀ (s : State) (a : RReg) (b c : FReg) (d : RReg),
    let n := (s.readR d).toNat
    let t0 := (s.readR a).toNat
    let diff := fsub (s.readF c) (s.readF b)
    0 < n → t0 + n ≤ s.cfg.dmemWords →
    ∃ t, exec (.vrampa a b c d) s = .next t ∧ t.dmemWord (t0 + n - 1) = s.readF c ∧
      (Finite diff → fge diff 0#32 = true →
        ∀ i, i + 2 < n → fle (t.dmemWord (t0 + i)) (t.dmemWord (t0 + i + 1)) = true) ∧
      (Finite diff → fle diff 0#32 = true →
        ∀ i, i + 2 < n → fge (t.dmemWord (t0 + i)) (t.dmemWord (t0 + i + 1)) = true)

/-- The third property of R202 as the rule prints it, for a difference that is not negative: every element before
the last lies between `A` and `fadd(A, D)`. It is FALSE of the formula of R201: `fmul(k, D)` overflows to infinity
when `D` is near the largest finite value, as for `A` = 0, `B` = 0x7F7FFFFF, count 3, element 1 (R15, R16, R18;
log 21). What holds is AdditiveRampStaysBetweenWithoutOverflow. -/
def Obligations.AdditiveRampStaysBetween : Prop :=
  ∀ (first final : Word) (n i : Nat), i + 1 < n → n ≤ 2 ^ 24 →
    Finite first → Finite final → Finite (fsub final first) → fge (fsub final first) 0#32 = true →
    fle first (addRampElement first final n i) = true ∧
    fle (addRampElement first final n i) (fadd first (fsub final first)) = true

/-- The third and fourth properties of R202 where they hold: when the difference `D` and the largest product
`fmul(RN32(n - 1), D)` are finite, every element before the last lies between `A` and `fadd(A, D)`, for a rising and
for a falling ramp; and when moreover `fadd(A, D)` is `final`, the whole vector is monotone, its last element
included. R202 prints neither the second premise nor a reason that no product overflows (log 21). -/
def Obligations.AdditiveRampStaysBetweenWithoutOverflow : Prop :=
  ∀ (s : State) (a : RReg) (b c : FReg) (d : RReg), s.cfg.legal = true →
    let n := (s.readR d).toNat
    let t0 := (s.readR a).toNat
    let first := s.readF b
    let final := s.readF c
    let diff := fsub final first
    0 < n → t0 + n ≤ s.cfg.dmemWords → Finite diff → Finite (fmul (intToFloat ((n : Int) - 1)) diff) →
    ∃ t, exec (.vrampa a b c d) s = .next t ∧
      (fge diff 0#32 = true →
        (∀ i, i + 1 < n → fle first (t.dmemWord (t0 + i)) = true ∧
          fle (t.dmemWord (t0 + i)) (fadd first diff) = true) ∧
        (fadd first diff = final →
          ∀ i, i + 1 < n → fle (t.dmemWord (t0 + i)) (t.dmemWord (t0 + i + 1)) = true)) ∧
      (fle diff 0#32 = true →
        (∀ i, i + 1 < n → fge first (t.dmemWord (t0 + i)) = true ∧
          fge (t.dmemWord (t0 + i)) (fadd first diff) = true) ∧
        (fadd first diff = final →
          ∀ i, i + 1 < n → fge (t.dmemWord (t0 + i)) (t.dmemWord (t0 + i + 1)) = true))

/-! ## Wavetable lookup -/

/-- The corner cases of interpolation in R252: weight +0, and equal ends, give `u` (or +0 for a zero `u`). Where
R252 allows any finite `u` and `v`, the difference must also be finite: with the two largest values of opposite
sign it overflows and the result is the NaN: the model follows the formula, as R18 says, and not the remark (R15,
R16, R18; log 21). -/
def Obligations.LerpCorners : Prop :=
  (∀ u v f : Word, lerp u v f = fadd u (fmul f (fsub v u))) ∧
  (∀ u v : Word, Finite u → Finite v → Finite (fsub v u) →
    lerp u v 0#32 = u ∨ (fUnits u = 0 ∧ lerp u v 0#32 = 0#32)) ∧
  (∀ u f : Word, Finite u → Finite f → lerp u u f = u ∨ (fUnits u = 0 ∧ lerp u u f = 0#32)) ∧
  lerp 0xFF7FFFFF#32 0x7F7FFFFF#32 0#32 = 0x7FC00000#32

/-- `WLK` with every check passed (R250, R253, R254, R256): it writes the interpolated sample to `F[a]`, computed
from the descriptor, the phase and the table index as the rules print it, and changes nothing else but `PC`. -/
def Obligations.WavetableLookup : Prop :=
  ∀ (s : State) (a d : FReg) (b : PReg) (c : RReg),
    let q := (s.readR c).toNat
    let base := (s.dmemWord q).toNat
    let len := (s.dmemWord (q + 1)).toNat
    let ntab := (s.dmemWord (q + 2)).toNat
    let mode := s.dmemWord (q + 3)
    let i := (s.readP b).extractLsb' 32 32
    let f := fracFloat (s.readP b)
    let w := s.readF d
    let i0 := if mode.getLsbD 0 then i.toNat &&& (len - 1) else i.toInt.toNat
    let i1 := if mode.getLsbD 0 then (i0 + 1) &&& (len - 1) else min (i0 + 1) (len - 1)
    let intra : Nat → Word := fun t =>
      let s0 := s.dmemWord (base + t * len + i0)
      let s1 := s.dmemWord (base + t * len + i1)
      if mode.getLsbD 1 then fadd s0 (fmul f (fsub s1 s0)) else s0
    let below := floorNonneg w
    q + 4 ≤ s.cfg.dmemWords → WaveDescOk s q → (1 < ntab → isNaN w = false) →
    (mode.getLsbD 0 = false → 0 ≤ i.toInt ∧ i.toInt < len) →
    Executes (formatR 0x1C#6 a (0#1 ++ b) c d 0#10) (.wlk a b c d) s
      (OnlyF a
        (if ntab = 1 then intra 0
        else if fle w 0#32 then intra 0
        else if fge w (intToFloat (ntab - 1 : Nat)) then intra (ntab - 1)
        else if mode.getLsbD 2 then
          fadd (intra below) (fmul (fsub w (intToFloat below)) (fsub (intra (below + 1)) (intra below)))
        else intra below))

/-- The checks of `WLK` in their order, with what each records, and that a table read cannot fail once the
descriptor is valid and the index good (R251, R255). -/
def Obligations.WavetableChecks : Prop :=
  ∀ (s : State) (a d : FReg) (b : PReg) (c : RReg),
    let word := formatR 0x1C#6 a (0#1 ++ b) c d 0#10
    let q := (s.readR c).toNat
    let base := (s.dmemWord q).toNat
    let len := (s.dmemWord (q + 1)).toNat
    let ntab := (s.dmemWord (q + 2)).toNat
    let wrap := (s.dmemWord (q + 3)).getLsbD 0
    let i := (s.readP b).extractLsb' 32 32
    let w := s.readF d
    let inTable := 0 ≤ i.toInt ∧ i.toInt < len
    (s.cfg.dmemWords < q + 4 → Executes word (.wlk a b c d) s
      (FaultTaken .dmemRange (BitVec.ofNat 32 (max q s.cfg.dmemWords)))) ∧
    (q + 4 ≤ s.cfg.dmemWords → ¬ WaveDescOk s q → Executes word (.wlk a b c d) s
      (FaultTaken .waveDesc (BitVec.ofNat 32 q))) ∧
    (q + 4 ≤ s.cfg.dmemWords → WaveDescOk s q → 1 < ntab → isNaN w = true → Executes word (.wlk a b c d) s
      (FaultTaken .waveIndex w)) ∧
    (q + 4 ≤ s.cfg.dmemWords → WaveDescOk s q → ¬ (1 < ntab ∧ isNaN w = true) → wrap = false → ¬ inTable →
      Executes word (.wlk a b c d) s (FaultTaken .sampleRange i)) ∧
    (WaveDescOk s q → (wrap = false → inTable) → ∀ table, table < ntab →
      let i0 := sampleIndex (waveDesc s q) (s.readP b)
      let i1 := nextSampleIndex (waveDesc s q) (s.readP b)
      base + table * len + i0 < base + ntab * len ∧ base + table * len + i1 < base + ntab * len ∧
      base + ntab * len ≤ s.cfg.dmemWords)

/-- The mask of a periodic table is the remainder modulo its length, for negative phases too (R250, R251), and the
weight between two tables is exact (R254). -/
def Obligations.WavetableIndices : Prop :=
  (∀ (d : WaveDesc) (p : DWord) (k : Nat), k ≤ 31 → d.len = 2 ^ k → wrapBit d = true →
    (sampleIndex d p : Int) = (p.extractLsb' 32 32).toInt % d.len ∧
    (nextSampleIndex d p : Int) = ((p.extractLsb' 32 32).toInt + 1) % d.len) ∧
  ∀ w : Word, Finite w → w.msb = false → floorNonneg w ≤ 2 ^ 24 →
    Finite (fsub w (intToFloat (floorNonneg w))) ∧
    fValue (fsub w (intToFloat (floorNonneg w))) = fValue w - floorNonneg w * 2 ^ 149 ∧
    fValue (fsub w (intToFloat (floorNonneg w))) < 2 ^ 149

/-! ## IIR filters -/

/-- A vector instruction with count 0 changes no state but `PC`, whatever its other operands name (R80). -/
def Obligations.ZeroCountDoesNothing : Prop :=
  ∀ (s : State) (a b c : RReg) (f g : FReg) (d : RReg), s.readR d = 0#32 →
    ∀ x ∈ [(formatR 0x20#6 a f g d 0#10, Instr.vrampa a f g d), (formatR 0x20#6 a f g d 1#10, .vrampm a f g d),
        (formatR 0x24#6 a b c d 0#10, .iir2di a b c d), (formatR 0x24#6 a b c d 1#10, .iir2dii a b c d),
        (formatR 0x24#6 a b c d 2#10, .iir1ap a b c d), (formatR 0x24#6 a b c d 4#10, .iir2diMacc a b c d),
        (formatR 0x24#6 a b c d 5#10, .iir2diiMacc a b c d), (formatR 0x24#6 a b c d 6#10, .iir1apMacc a b c d)],
      Executes x.1 x.2 s (OnlyPc (s.pc + 1#32))

/-- The region checks of an IIR instruction with a count that is not 0: descriptor, source, target, in this order;
the first that fails is recorded (R221, R302). -/
def Obligations.FilterChecks : Prop :=
  ∀ (s : State) (a b c d : RReg), s.readR d ≠ 0#32 →
    let n := (s.readR d).toNat
    let q := (s.readR a).toNat
    let xs := (s.readR b).toNat
    let ys := (s.readR c).toNat
    let words := s.cfg.dmemWords
    let faultAt : Nat → State → State → Prop := fun base => FaultTaken .dmemRange (BitVec.ofNat 32 (max base words))
    ∀ x ∈ [(formatR 0x24#6 a b c d 0#10, Instr.iir2di a b c d, 10), (formatR 0x24#6 a b c d 1#10, .iir2dii a b c d, 10),
        (formatR 0x24#6 a b c d 2#10, .iir1ap a b c d, 4), (formatR 0x24#6 a b c d 4#10, .iir2diMacc a b c d, 10),
        (formatR 0x24#6 a b c d 5#10, .iir2diiMacc a b c d, 10), (formatR 0x24#6 a b c d 6#10, .iir1apMacc a b c d, 4)],
      (words < q + x.2.2 → Executes x.1 x.2.1 s (faultAt q)) ∧
      (q + x.2.2 ≤ words → words < xs + n → Executes x.1 x.2.1 s (faultAt xs)) ∧
      (q + x.2.2 ≤ words → xs + n ≤ words → words < ys + n → Executes x.1 x.2.1 s (faultAt ys))

/-- `IIR2DI` and `IIR2DI.MACC` (R220, R221, R222, R81) with all regions in range: element after element, each
reading memory (`mem k`, a word at every address) as the elements before left it; coefficients, gain and history
latched at the start; the history written back at the end; no other byte changed. -/
def Obligations.DirectFormI : Prop :=
  ∀ (macc : Bool) (s : State) (a b c d : RReg),
    let n := (s.readR d).toNat
    let q := (s.readR a).toNat
    let xs := (s.readR b).toNat
    let ys := (s.readR c).toNat
    0 < n → q + 10 ≤ s.cfg.dmemWords → xs + n ≤ s.cfg.dmemWords → ys + n ≤ s.cfg.dmemWords →
    Executes (formatR 0x24#6 a b c d (if macc then 4#10 else 0#10))
      (if macc then .iir2diMacc a b c d else .iir2di a b c d) s (fun s t =>
      OnlyDmem s t ∧
      (∀ byte, byte < 4 * ys ∨ 4 * (ys + n) ≤ byte → byte < 4 * (q + 5) ∨ 4 * (q + 9) ≤ byte →
        t.dmemByte byte = s.dmemByte byte) ∧
      ∃ (mem : Nat → Nat → Word) (x1 x2 y1 y2 : Nat → Word),
        (∀ j, mem 0 j = s.dmemWord j) ∧ x1 0 = s.dmemWord (q + 5) ∧ x2 0 = s.dmemWord (q + 6) ∧
        y1 0 = s.dmemWord (q + 7) ∧ y2 0 = s.dmemWord (q + 8) ∧
        (∀ k, k < n →
          let xi := mem k (xs + k)
          let yi := fsub (fsub (fadd (fadd (fmul (s.dmemWord q) xi) (fmul (s.dmemWord (q + 1)) (x1 k)))
            (fmul (s.dmemWord (q + 2)) (x2 k))) (fmul (s.dmemWord (q + 3)) (y1 k))) (fmul (s.dmemWord (q + 4)) (y2 k))
          x1 (k + 1) = xi ∧ x2 (k + 1) = x1 k ∧ y1 (k + 1) = yi ∧ y2 (k + 1) = y1 k ∧
          ∀ j, mem (k + 1) j =
            if j = ys + k then (if macc then fadd (mem k (ys + k)) (fmul (s.dmemWord (q + 9)) yi) else yi)
            else mem k j) ∧
        ∀ j, t.dmemWord j =
          if j = q + 5 then x1 n else if j = q + 6 then x2 n else if j = q + 7 then y1 n
          else if j = q + 8 then y2 n else mem n j)

/-- `IIR2DII` and `IIR2DII.MACC` (R220, R221, R223, R81), said as for the direct form I; descriptor words +7 and +8
are neither read nor written. -/
def Obligations.DirectFormII : Prop :=
  ∀ (macc : Bool) (s : State) (a b c d : RReg),
    let n := (s.readR d).toNat
    let q := (s.readR a).toNat
    let xs := (s.readR b).toNat
    let ys := (s.readR c).toNat
    0 < n → q + 10 ≤ s.cfg.dmemWords → xs + n ≤ s.cfg.dmemWords → ys + n ≤ s.cfg.dmemWords →
    Executes (formatR 0x24#6 a b c d (if macc then 5#10 else 1#10))
      (if macc then .iir2diiMacc a b c d else .iir2dii a b c d) s (fun s t =>
      OnlyDmem s t ∧
      (∀ byte, byte < 4 * ys ∨ 4 * (ys + n) ≤ byte → byte < 4 * (q + 5) ∨ 4 * (q + 7) ≤ byte →
        t.dmemByte byte = s.dmemByte byte) ∧
      ∃ (mem : Nat → Nat → Word) (w1 w2 : Nat → Word),
        (∀ j, mem 0 j = s.dmemWord j) ∧ w1 0 = s.dmemWord (q + 5) ∧ w2 0 = s.dmemWord (q + 6) ∧
        (∀ k, k < n →
          let xi := mem k (xs + k)
          let w := fsub (fsub xi (fmul (s.dmemWord (q + 3)) (w1 k))) (fmul (s.dmemWord (q + 4)) (w2 k))
          let yi := fadd (fadd (fmul (s.dmemWord q) w) (fmul (s.dmemWord (q + 1)) (w1 k)))
            (fmul (s.dmemWord (q + 2)) (w2 k))
          w1 (k + 1) = w ∧ w2 (k + 1) = w1 k ∧
          ∀ j, mem (k + 1) j =
            if j = ys + k then (if macc then fadd (mem k (ys + k)) (fmul (s.dmemWord (q + 9)) yi) else yi)
            else mem k j) ∧
        ∀ j, t.dmemWord j = if j = q + 5 then w1 n else if j = q + 6 then w2 n else mem n j)

/-- `IIR1AP` and `IIR1AP.MACC` (R220, R221, R224, R81), said as for the direct form I. -/
def Obligations.AllPole : Prop :=
  ∀ (macc : Bool) (s : State) (a b c d : RReg),
    let n := (s.readR d).toNat
    let q := (s.readR a).toNat
    let xs := (s.readR b).toNat
    let ys := (s.readR c).toNat
    0 < n → q + 4 ≤ s.cfg.dmemWords → xs + n ≤ s.cfg.dmemWords → ys + n ≤ s.cfg.dmemWords →
    Executes (formatR 0x24#6 a b c d (if macc then 6#10 else 2#10))
      (if macc then .iir1apMacc a b c d else .iir1ap a b c d) s (fun s t =>
      OnlyDmem s t ∧
      (∀ byte, byte < 4 * ys ∨ 4 * (ys + n) ≤ byte → byte < 4 * (q + 2) ∨ 4 * (q + 3) ≤ byte →
        t.dmemByte byte = s.dmemByte byte) ∧
      ∃ (mem : Nat → Nat → Word) (y1 : Nat → Word),
        (∀ j, mem 0 j = s.dmemWord j) ∧ y1 0 = s.dmemWord (q + 2) ∧
        (∀ k, k < n →
          let yi := fsub (fmul (s.dmemWord q) (mem k (xs + k))) (fmul (s.dmemWord (q + 1)) (y1 k))
          y1 (k + 1) = yi ∧
          ∀ j, mem (k + 1) j =
            if j = ys + k then (if macc then fadd (mem k (ys + k)) (fmul (s.dmemWord (q + 3)) yi) else yi)
            else mem k j) ∧
        ∀ j, t.dmemWord j = if j = q + 2 then y1 n else mem n j)

/-- In place or with the target apart from the source (R81), the words that an overwriting filter writes are the
outputs of the kernel's recurrence over the source words as they stood before; and the history that the
accumulating form of the same filter leaves is the same (R221: it does not depend on the mode). -/
def Obligations.InPlaceFilterAndHistory : Prop :=
  ∀ (s : State) (a b c d : RReg),
    let n := (s.readR d).toNat
    let q := (s.readR a).toNat
    let xs := (s.readR b).toNat
    let ys := (s.readR c).toNat
    let source : Nat → Word := fun k => s.dmemWord (xs + k)
    0 < n → xs + n ≤ s.cfg.dmemWords → ys + n ≤ s.cfg.dmemWords → (xs = ys ∨ Apart xs n ys n) →
    (q + 10 ≤ s.cfg.dmemWords → Apart q 10 ys n →
      ∃ t u, exec (.iir2di a b c d) s = .next t ∧ exec (.iir2diMacc a b c d) s = .next u ∧
      (∀ k, k < n → t.dmemWord (ys + k) =
        kernelOutput (stepI (loadBiquad s.dmem q)) source (loadHistoryI s.dmem q) k) ∧
      ∀ j, q ≤ j → j < q + 10 → u.dmemWord j = t.dmemWord j) ∧
    (q + 10 ≤ s.cfg.dmemWords → Apart q 10 ys n →
      ∃ t u, exec (.iir2dii a b c d) s = .next t ∧ exec (.iir2diiMacc a b c d) s = .next u ∧
      (∀ k, k < n → t.dmemWord (ys + k) =
        kernelOutput (stepII (loadBiquad s.dmem q)) source (loadHistoryII s.dmem q) k) ∧
      ∀ j, q ≤ j → j < q + 10 → u.dmemWord j = t.dmemWord j) ∧
    (q + 4 ≤ s.cfg.dmemWords → Apart q 4 ys n →
      ∃ t u, exec (.iir1ap a b c d) s = .next t ∧ exec (.iir1apMacc a b c d) s = .next u ∧
      (∀ k, k < n → t.dmemWord (ys + k) =
        kernelOutput (stepAP (loadOnePole s.dmem q)) source (s.dmemWord (q + 2)) k) ∧
      ∀ j, q ≤ j → j < q + 4 → u.dmemWord j = t.dmemWord j)

/-- A filter continued over two instructions of `n1` and `n2` elements leaves the same memory, outputs and history,
as one instruction of `n1 + n2` elements (R225), for all six instructions and for source and target regions that
overlap in any way, but not the descriptor. -/
def Obligations.SplitRunEqualsOneRun : Prop :=
  ∀ x ∈ [(Instr.iir2di, 10), (Instr.iir2dii, 10), (Instr.iir1ap, 4), (Instr.iir2diMacc, 10),
      (Instr.iir2diiMacc, 10), (Instr.iir1apMacc, 4)],
  ∀ (s : State) (a b c n1 b' c' n2 total : RReg),
    let q := (s.readR a).toNat
    let xs := (s.readR b).toNat
    let ys := (s.readR c).toNat
    let n := (s.readR total).toNat
    (s.readR n1).toNat + (s.readR n2).toNat = n → (s.readR b').toNat = xs + (s.readR n1).toNat →
    (s.readR c').toNat = ys + (s.readR n1).toNat →
    q + x.2 ≤ s.cfg.dmemWords → xs + n ≤ s.cfg.dmemWords → ys + n ≤ s.cfg.dmemWords →
    Apart q x.2 xs n → Apart q x.2 ys n →
    ∃ s1 s2 t, exec (x.1 a b c n1) s = .next s1 ∧ exec (x.1 a b' c' n2) s1 = .next s2 ∧
      exec (x.1 a b c total) s = .next t ∧ SameDmem s2 t

/-- The unity filter of R225, `b` = (1, 0, 0), `a` = (0, 0), zero history, copies finite inputs; an input of -0 it
may copy as +0, since R16 gives -0 + +0 = +0 (R18; log 21). -/
def Obligations.UnityFilterCopies : Prop :=
  ∀ (x : Nat → Word) (k : Nat), (∀ j, Finite (x j)) →
    let y := kernelOutput (stepI ⟨0x3F800000#32, 0#32, 0#32, 0#32, 0#32⟩) x ⟨0#32, 0#32, 0#32, 0#32⟩ k
    (x k ≠ 0x80000000#32 → y = x k) ∧ (x k = 0x80000000#32 → y = 0#32 ∨ y = 0x80000000#32)

/-! ## The host's side -/

/-- The window of R44 while stopped: what a read of each register and memory word returns, that a write is read
back and changes nothing else, and that reserved offsets read 0 and ignore writes. -/
def Obligations.HostWindow : Prop :=
  ∀ s : State, s.cfg.legal = true → s.run = false →
    let reads : Nat → Word → Prop := fun offset v => hostRead 4 offset s = .next { s with hostData := v }
    (∀ k : RReg, reads (0x100 + 4 * k.toNat) (s.readR k)) ∧
    (∀ k : FReg, reads (0x140 + 4 * k.toNat) (s.readF k)) ∧
    (∀ k : PReg, reads (0x180 + 8 * k.toNat) ((s.readP k).extractLsb' 0 32) ∧
      reads (0x184 + 8 * k.toNat) ((s.readP k).extractLsb' 32 32)) ∧
    (∀ j, j < s.cfg.imemWords → reads (0x10000 + 4 * j) (s.imemWord j)) ∧
    (∀ j, j < s.cfg.dmemWords → reads (0x4000000 + 4 * j) (s.dmemWord j)) ∧
    (∀ offset, offset % 4 = 0 →
      (0x30 ≤ offset ∧ offset < 0x100) ∨ (0x1C0 ≤ offset ∧ offset < 0x10000) ∨
        (0x10000 + 4 * s.cfg.imemWords ≤ offset ∧ offset < 0x4000000) ∨ 0x4000000 + 4 * s.cfg.dmemWords ≤ offset →
      reads offset 0#32 ∧ ∀ v, hostWrite 4 offset v s = .next s) ∧
    ∀ v : Word,
      (∀ k : RReg, ∃ t, hostWrite 4 (0x100 + 4 * k.toNat) v s = .next t ∧
        t.readR k = (if k = 0#4 then 0#32 else v) ∧ (∀ m, m ≠ k → t.readR m = s.readR m) ∧ t = { s with r := t.r }) ∧
      (∀ k : FReg, ∃ t, hostWrite 4 (0x140 + 4 * k.toNat) v s = .next t ∧
        t.readF k = v ∧ (∀ m, m ≠ k → t.readF m = s.readF m) ∧ t = { s with f := t.f }) ∧
      (∀ k : PReg, ∃ t, hostWrite 4 (0x180 + 8 * k.toNat) v s = .next t ∧
        t.readP k = (s.readP k).extractLsb' 32 32 ++ v ∧ (∀ m, m ≠ k → t.readP m = s.readP m) ∧
        t = { s with p := t.p }) ∧
      (∀ k : PReg, ∃ t, hostWrite 4 (0x184 + 8 * k.toNat) v s = .next t ∧
        t.readP k = v ++ (s.readP k).extractLsb' 0 32 ∧ (∀ m, m ≠ k → t.readP m = s.readP m) ∧
        t = { s with p := t.p }) ∧
      (∀ j, j < s.cfg.imemWords → ∃ t, hostWrite 4 (0x10000 + 4 * j) v s = .next t ∧
        (∀ i, i < 4 → t.imemByte (4 * j + i) = v.extractLsb' (8 * i) 8) ∧
        (∀ byte, byte / 4 ≠ j → t.imemByte byte = s.imemByte byte) ∧ t = { s with imem := t.imem }) ∧
      (∀ j, j < s.cfg.dmemWords → ∃ t, hostWrite 4 (0x4000000 + 4 * j) v s = .next t ∧
        (∀ i, i < 4 → t.dmemByte (4 * j + i) = v.extractLsb' (8 * i) 8) ∧
        (∀ byte, byte / 4 ≠ j → t.dmemByte byte = s.dmemByte byte) ∧ t = { s with dmem := t.dmem })

/-- The host duties of R45: an access that is no aligned 32-bit one is refused; while running an access to `PCR`,
the fault record, a register or a memory is refused, and every other access is served (log 14 names the refusals). -/
def Obligations.HostDuties : Prop :=
  ∀ (s : State) (width offset : Nat) (v : Word), s.cfg.legal = true →
    let owned := OwnedWhileRunning s.cfg offset
    (width ≠ 4 ∨ offset % 4 ≠ 0 →
      hostRead width offset s = .refused .hostAccessForm ∧ hostWrite width offset v s = .refused .hostAccessForm) ∧
    (offset % 4 = 0 → s.run = true → owned →
      hostRead 4 offset s = .refused .hostAccessWhileRunning ∧
      hostWrite 4 offset v s = .refused .hostAccessWhileRunning) ∧
    (offset % 4 = 0 → s.run = false ∨ ¬ owned →
      (∃ word, hostRead 4 offset s = .next { s with hostData := word }) ∧ ∃ t, hostWrite 4 offset v s = .next t)

/-- The write actions of `CTRL` (R38): each bit alone, its conditions, the reserved bits, and several bits in one
write acting in the order STOP, CLRFAULT, START, STEP. STOP while running changes nothing but what is pending: the
sequencer's next turn finishes the instruction in progress, then `RUN` falls, and the other actions of the same write
follow on the state it left. That the other actions wait is log 9, and that the pending
writes form a queue of the model's own is log 22. -/
def Obligations.ControlRegister : Prop :=
  ∀ s : State,
    let ctrl : Word → State → Result := fun v s => hostWrite 4 4 v s
    hostRead 4 4 s = .next { s with hostData := 0#32 } ∧
    (s.run = false → s.faulted = false → ctrl 1#32 s = .next { s with halted := false, run := true }) ∧
    (s.run = true ∨ s.faulted = true → ctrl 1#32 s = .next s) ∧
    (s.run = false → s.faulted = false → ctrl 2#32 s = instructionStep { s with halted := false } ∧
      ∃ t, ctrl 2#32 s = .next t ∧ t.run = false) ∧
    (s.run = true ∨ s.faulted = true → ctrl 2#32 s = .next s) ∧
    (s.run = false → ctrl 4#32 s = .next { s with faulted := false, cause := 0#8, fpc := 0#32, finfo := 0#32 }) ∧
    (s.run = true → ctrl 4#32 s = .next s) ∧
    (s.run = true → ctrl 8#32 s = .next { s with pendingCtrl := s.pendingCtrl ++ [8#32] }) ∧
    (s.run = true → s.pendingCtrl = [] → ∃ t, instructionStep s = .next t ∧
      andThen (ctrl 8#32 s) sequencerTurn = .next { t with run := false } ∧
      ∀ v : Word, v.getLsbD 3 = true →
        andThen (ctrl v s) sequencerTurn = ctrl (v &&& 7#32) { t with run := false }) ∧
    (s.run = false → ctrl 8#32 s = .next s) ∧
    ∀ v : Word, s.run = false ∨ v.getLsbD 3 = false → ctrl v s =
      andThen (ctrl (v &&& 8#32) s) (fun s => andThen (ctrl (v &&& 4#32) s) (fun s =>
        andThen (ctrl (v &&& 1#32) s) (fun s => ctrl (v &&& 2#32) s)))

/-- The other control and status registers (R37, R39 to R43): what each reads as, and what a write does. -/
def Obligations.StatusAndInterruptRegisters : Prop :=
  ∀ (s : State) (v : Word),
    let reads : Nat → Word → Prop := fun offset w => hostRead 4 offset s = .next { s with hostData := w }
    reads 0x00 0x56440001#32 ∧
    (∃ status, reads 0x08 status ∧ status.getLsbD 0 = s.run ∧ status.getLsbD 1 = s.faulted ∧
      status.getLsbD 2 = s.halted ∧
      status.getLsbD 3 = (s.irqstat.getLsbD 0 && s.irqen.getLsbD 0 || s.irqstat.getLsbD 1 && s.irqen.getLsbD 1) ∧
      status.extractLsb' 4 28 = 0#28) ∧
    (s.run = false → reads 0x0C s.pc ∧ hostWrite 4 0x0C v s = .next { s with pc := v }) ∧
    (s.run = false → reads 0x10 (s.cause.setWidth 32) ∧ reads 0x14 s.fpc ∧ reads 0x18 s.finfo) ∧
    reads 0x1C (s.irqen.setWidth 32) ∧ hostWrite 4 0x1C v s = .next { s with irqen := v.extractLsb' 0 2 } ∧
    reads 0x20 (s.irqstat.setWidth 32) ∧
    (∃ t, hostWrite 4 0x20 v s = .next t ∧ t = { s with irqstat := t.irqstat } ∧
      ∀ i, i < 2 → t.irqstat.getLsbD i = (s.irqstat.getLsbD i && !v.getLsbD i)) ∧
    reads 0x24 (BitVec.ofNat 32 s.cfg.imemWords) ∧ reads 0x28 (BitVec.ofNat 32 s.cfg.dmemWords) ∧
    reads 0x2C s.cfg.rampFloor ∧
    (∀ offset ∈ [0x00, 0x08, 0x24, 0x28, 0x2C], hostWrite 4 offset v s = .next s) ∧
    (s.run = false → ∀ offset ∈ [0x10, 0x14, 0x18], hostWrite 4 offset v s = .next s)

/-- A fault is answered by the host (R304): while it is recorded START and STEP do nothing; `CTRL.CLRFAULT` then
`CTRL.START` with nothing repaired runs the faulting instruction again, and it faults again with the same record. -/
def Obligations.RetryFaultsAgain : Prop :=
  ∀ s t : State, s.cfg.legal = true → s.run = true → s.faulted = false → s.turns = [] →
    step s = .next t → t.faulted = true →
    hostWrite 4 4 1#32 t = .next t ∧ hostWrite 4 4 2#32 t = .next t ∧
    ∃ u, Host.Core.run Sys2Proof.core 3 { t with turns := [.hostWrite 4 4 4#32, .hostWrite 4 4 1#32] } = .next u ∧
      u.cause = t.cause ∧ u.fpc = t.fpc ∧ u.finfo = t.finfo ∧ u.faulted = true ∧ u.run = false ∧ u.pc = t.pc ∧
      SameData t u

/-- STOP takes effect only after the instruction in progress (R38, R130), which is why the host must wait (R345
(b)). A write of STOP while running leaves `STATUS.RUN` reading 1 and what the sequencer owns refused to the host. The
sequencer's next turn performs the whole instruction; then `RUN` is 0 and the other actions of the write follow. After
an instruction that cleared `RUN` itself, by a fault or `HALT`, STOP alone has no further effect (R302). That a pending
STOP may also take effect where no instruction is in progress, and that several pending writes act in their order, is
the model's form (log 9, log 22). -/
def Obligations.StopFinishesInstruction : Prop :=
  ∀ s : State, s.cfg.legal = true → s.run = true →
    (∀ v : Word, v.getLsbD 3 = true →
      ∃ t, hostWrite 4 4 v s = .next t ∧ t = { s with pendingCtrl := s.pendingCtrl ++ [v] } ∧
        (∃ status, hostRead 4 8 t = .next { t with hostData := status } ∧ status.getLsbD 0 = true) ∧
        ∀ offset w, offset % 4 = 0 → OwnedWhileRunning s.cfg offset →
          hostRead 4 offset t = .refused .hostAccessWhileRunning ∧
          hostWrite 4 offset w t = .refused .hostAccessWhileRunning) ∧
    (s.turns = [] ∨ s.turns.head? = some .sequencer →
      ∃ t, instructionStep { s with turns := s.turns.tail, pendingCtrl := [] } = .next t ∧
        (s.pendingCtrl = [8#32] → step s = .next { t with run := false }) ∧
        (s.pendingCtrl = [8#32] → t.run = false → step s = .next t) ∧
        ∀ v rest, s.pendingCtrl = v :: rest →
          step s = andThen (hostWrite 4 4 v { t with run := false }) (finishStops rest)) ∧
    ∀ later, s.turns = .stopTakesEffect :: later →
      (s.pendingCtrl = [] → step s = .next { s with turns := later }) ∧
      (s.pendingCtrl = [8#32] → step s = .next { s with turns := later, pendingCtrl := [], run := false }) ∧
      ∀ v rest, s.pendingCtrl = v :: rest →
        step s = andThen (hostWrite 4 4 v { s with turns := later, pendingCtrl := [], run := false })
          (finishStops rest)
end

