-- ==== Sys2Proof/Laws/Encoding.lean ====
section
/-! SUPPORT. The fields of an assembled word (spec/30_encoding.md R101): each format gives each field back. -/

namespace Sys2Proof

theorem extract_high {n m k : Nat} (x : BitVec n) (y : BitVec m) (lo : Nat) (h : m ≤ lo) :
    (x ++ y).extractLsb' lo k = x.extractLsb' (lo - m) k := by
  apply BitVec.eq_of_getLsbD_eq
  intro i hi
  simp only [BitVec.getLsbD_extractLsb', BitVec.getLsbD_append, hi, decide_true, Bool.true_and]
  rw [if_neg (by omega)]
  congr 1
  omega

theorem extract_low {n m k : Nat} (x : BitVec n) (y : BitVec m) (lo : Nat) (h : lo + k ≤ m) :
    (x ++ y).extractLsb' lo k = y.extractLsb' lo k := by
  apply BitVec.eq_of_getLsbD_eq
  intro i hi
  simp only [BitVec.getLsbD_extractLsb', BitVec.getLsbD_append, hi, decide_true, Bool.true_and]
  rw [if_pos (by omega)]

theorem extract_whole {n : Nat} (x : BitVec n) : x.extractLsb' 0 n = x := by
  apply BitVec.eq_of_getLsbD_eq
  intro i hi
  simp [hi]

section
variable (op : BitVec 6) (a b c d : BitVec 4) (fn : BitVec 10) (i18 : BitVec 18) (i22 : BitVec 22)

@[simp] theorem opField_formatR : opField (formatR op a b c d fn) = op := by
  simp only [opField, formatR]
  rw [extract_high _ _ _ (by decide), extract_high _ _ _ (by decide), extract_high _ _ _ (by decide),
    extract_high _ _ _ (by decide), extract_high _ _ _ (by decide)]
  exact extract_whole op

@[simp] theorem aField_formatR : aField (formatR op a b c d fn) = a := by
  simp only [aField, formatR]
  rw [extract_high _ _ _ (by decide), extract_high _ _ _ (by decide), extract_high _ _ _ (by decide),
    extract_high _ _ _ (by decide), extract_low _ _ _ (by decide)]
  exact extract_whole a

@[simp] theorem bField_formatR : bField (formatR op a b c d fn) = b := by
  simp only [bField, formatR]
  rw [extract_high _ _ _ (by decide), extract_high _ _ _ (by decide), extract_high _ _ _ (by decide),
    extract_low _ _ _ (by decide)]
  exact extract_whole b

@[simp] theorem cField_formatR : cField (formatR op a b c d fn) = c := by
  simp only [cField, formatR]
  rw [extract_high _ _ _ (by decide), extract_high _ _ _ (by decide), extract_low _ _ _ (by decide)]
  exact extract_whole c

@[simp] theorem dField_formatR : dField (formatR op a b c d fn) = d := by
  simp only [dField, formatR]
  rw [extract_high _ _ _ (by decide), extract_low _ _ _ (by decide)]
  exact extract_whole d

@[simp] theorem fnField_formatR : fnField (formatR op a b c d fn) = fn := by
  simp only [fnField, formatR]
  rw [extract_low _ _ _ (by decide)]
  exact extract_whole fn

@[simp] theorem opField_formatI : opField (formatI op a b i18) = op := by
  simp only [opField, formatI]
  rw [extract_high _ _ _ (by decide), extract_high _ _ _ (by decide), extract_high _ _ _ (by decide)]
  exact extract_whole op

@[simp] theorem aField_formatI : aField (formatI op a b i18) = a := by
  simp only [aField, formatI]
  rw [extract_high _ _ _ (by decide), extract_high _ _ _ (by decide), extract_low _ _ _ (by decide)]
  exact extract_whole a

@[simp] theorem bField_formatI : bField (formatI op a b i18) = b := by
  simp only [bField, formatI]
  rw [extract_high _ _ _ (by decide), extract_low _ _ _ (by decide)]
  exact extract_whole b

@[simp] theorem imm18Field_formatI : imm18Field (formatI op a b i18) = i18 := by
  simp only [imm18Field, formatI]
  rw [extract_low _ _ _ (by decide)]
  exact extract_whole i18

@[simp] theorem opField_formatU : opField (formatU op a i22) = op := by
  simp only [opField, formatU]
  rw [extract_high _ _ _ (by decide), extract_high _ _ _ (by decide)]
  exact extract_whole op

@[simp] theorem aField_formatU : aField (formatU op a i22) = a := by
  simp only [aField, formatU]
  rw [extract_high _ _ _ (by decide), extract_low _ _ _ (by decide)]
  exact extract_whole a

@[simp] theorem imm22Field_formatU : imm22Field (formatU op a i22) = i22 := by
  simp only [imm22Field, formatU]
  rw [extract_low _ _ _ (by decide)]
  exact extract_whole i22

end

/-! ## A word of each format under the mask of its row -/

theorem formatR_and (op op' : BitVec 6) (a a' b b' c c' d d' : BitVec 4) (fn fn' : BitVec 10) :
    formatR op a b c d fn &&& formatR op' a' b' c' d' fn' =
      formatR (op &&& op') (a &&& a') (b &&& b') (c &&& c') (d &&& d') (fn &&& fn') := by
  unfold formatR
  exact BitVec.and_append.trans (congrArg (· ++ _) <| BitVec.and_append.trans (congrArg (· ++ _) <| BitVec.and_append.trans (congrArg (· ++ _) <| BitVec.and_append.trans (congrArg (· ++ _) <| BitVec.and_append))))

theorem formatI_and (op op' : BitVec 6) (a a' b b' : BitVec 4) (i i' : BitVec 18) :
    formatI op a b i &&& formatI op' a' b' i' = formatI (op &&& op') (a &&& a') (b &&& b') (i &&& i') := by
  unfold formatI
  exact BitVec.and_append.trans (congrArg (· ++ _) <| BitVec.and_append.trans (congrArg (· ++ _) <| BitVec.and_append))

theorem formatU_and (op op' : BitVec 6) (a a' : BitVec 4) (i i' : BitVec 22) :
    formatU op a i &&& formatU op' a' i' = formatU (op &&& op') (a &&& a') (i &&& i') := by
  unfold formatU
  exact BitVec.and_append.trans (congrArg (· ++ _) <| BitVec.and_append)

/-- The top bit of a `P` field is 0 (R102). -/
theorem phaseField_and_top (p : PReg) : phaseField p &&& 8#4 = 0#4 := by
  revert p; decide

@[simp] theorem phaseReg_phaseField (p : PReg) : phaseReg (phaseField p) = p := by
  revert p; decide

@[simp] theorem phaseField_msb (p : PReg) : (phaseField p).msb = false := by
  revert p; decide

end Sys2Proof
end

