-- ==== Sys2Proof/Laws/State.lean ====
section
/-! SUPPORT. What each update of the state does to each field: one lemma per field per update. No later proof
unfolds a record update. -/

namespace Sys2Proof.Machine

/-! ## `State.writeR` -/

section
variable (s : State) (a : RReg) (v : Word)

@[simp] theorem writeR_r : (s.writeR a v).r = if a = 0#4 then s.r else s.r.setIfInBounds (a.toNat - 1) v := rfl
@[simp] theorem writeR_f : (s.writeR a v).f = s.f := rfl
@[simp] theorem writeR_p : (s.writeR a v).p = s.p := rfl
@[simp] theorem writeR_pc : (s.writeR a v).pc = s.pc := rfl
@[simp] theorem writeR_run : (s.writeR a v).run = s.run := rfl
@[simp] theorem writeR_faulted : (s.writeR a v).faulted = s.faulted := rfl
@[simp] theorem writeR_halted : (s.writeR a v).halted = s.halted := rfl
@[simp] theorem writeR_cause : (s.writeR a v).cause = s.cause := rfl
@[simp] theorem writeR_fpc : (s.writeR a v).fpc = s.fpc := rfl
@[simp] theorem writeR_finfo : (s.writeR a v).finfo = s.finfo := rfl
@[simp] theorem writeR_irqen : (s.writeR a v).irqen = s.irqen := rfl
@[simp] theorem writeR_irqstat : (s.writeR a v).irqstat = s.irqstat := rfl
@[simp] theorem writeR_imem : (s.writeR a v).imem = s.imem := rfl
@[simp] theorem writeR_dmem : (s.writeR a v).dmem = s.dmem := rfl
@[simp] theorem writeR_cfg : (s.writeR a v).cfg = s.cfg := rfl
@[simp] theorem writeR_pendingCtrl : (s.writeR a v).pendingCtrl = s.pendingCtrl := rfl
@[simp] theorem writeR_turns : (s.writeR a v).turns = s.turns := rfl
@[simp] theorem writeR_hostData : (s.writeR a v).hostData = s.hostData := rfl
@[simp] theorem writeR_freeIndex : (s.writeR a v).freeIndex = s.freeIndex := rfl

end

/-! ## `State.writeF` -/

section
variable (s : State) (a : FReg) (v : Word)

@[simp] theorem writeF_r : (s.writeF a v).r = s.r := rfl
@[simp] theorem writeF_f : (s.writeF a v).f = s.f.setIfInBounds a.toNat v := rfl
@[simp] theorem writeF_p : (s.writeF a v).p = s.p := rfl
@[simp] theorem writeF_pc : (s.writeF a v).pc = s.pc := rfl
@[simp] theorem writeF_run : (s.writeF a v).run = s.run := rfl
@[simp] theorem writeF_faulted : (s.writeF a v).faulted = s.faulted := rfl
@[simp] theorem writeF_halted : (s.writeF a v).halted = s.halted := rfl
@[simp] theorem writeF_cause : (s.writeF a v).cause = s.cause := rfl
@[simp] theorem writeF_fpc : (s.writeF a v).fpc = s.fpc := rfl
@[simp] theorem writeF_finfo : (s.writeF a v).finfo = s.finfo := rfl
@[simp] theorem writeF_irqen : (s.writeF a v).irqen = s.irqen := rfl
@[simp] theorem writeF_irqstat : (s.writeF a v).irqstat = s.irqstat := rfl
@[simp] theorem writeF_imem : (s.writeF a v).imem = s.imem := rfl
@[simp] theorem writeF_dmem : (s.writeF a v).dmem = s.dmem := rfl
@[simp] theorem writeF_cfg : (s.writeF a v).cfg = s.cfg := rfl
@[simp] theorem writeF_pendingCtrl : (s.writeF a v).pendingCtrl = s.pendingCtrl := rfl
@[simp] theorem writeF_turns : (s.writeF a v).turns = s.turns := rfl
@[simp] theorem writeF_hostData : (s.writeF a v).hostData = s.hostData := rfl
@[simp] theorem writeF_freeIndex : (s.writeF a v).freeIndex = s.freeIndex := rfl

end

/-! ## `State.writeP` -/

section
variable (s : State) (a : PReg) (v : DWord)

@[simp] theorem writeP_r : (s.writeP a v).r = s.r := rfl
@[simp] theorem writeP_f : (s.writeP a v).f = s.f := rfl
@[simp] theorem writeP_p : (s.writeP a v).p = s.p.setIfInBounds a.toNat v := rfl
@[simp] theorem writeP_pc : (s.writeP a v).pc = s.pc := rfl
@[simp] theorem writeP_run : (s.writeP a v).run = s.run := rfl
@[simp] theorem writeP_faulted : (s.writeP a v).faulted = s.faulted := rfl
@[simp] theorem writeP_halted : (s.writeP a v).halted = s.halted := rfl
@[simp] theorem writeP_cause : (s.writeP a v).cause = s.cause := rfl
@[simp] theorem writeP_fpc : (s.writeP a v).fpc = s.fpc := rfl
@[simp] theorem writeP_finfo : (s.writeP a v).finfo = s.finfo := rfl
@[simp] theorem writeP_irqen : (s.writeP a v).irqen = s.irqen := rfl
@[simp] theorem writeP_irqstat : (s.writeP a v).irqstat = s.irqstat := rfl
@[simp] theorem writeP_imem : (s.writeP a v).imem = s.imem := rfl
@[simp] theorem writeP_dmem : (s.writeP a v).dmem = s.dmem := rfl
@[simp] theorem writeP_cfg : (s.writeP a v).cfg = s.cfg := rfl
@[simp] theorem writeP_pendingCtrl : (s.writeP a v).pendingCtrl = s.pendingCtrl := rfl
@[simp] theorem writeP_turns : (s.writeP a v).turns = s.turns := rfl
@[simp] theorem writeP_hostData : (s.writeP a v).hostData = s.hostData := rfl
@[simp] theorem writeP_freeIndex : (s.writeP a v).freeIndex = s.freeIndex := rfl

end

/-! ## `State.goTo` -/

section
variable (s : State) (t : Word)

@[simp] theorem goTo_r : (s.goTo t).r = s.r := rfl
@[simp] theorem goTo_f : (s.goTo t).f = s.f := rfl
@[simp] theorem goTo_p : (s.goTo t).p = s.p := rfl
@[simp] theorem goTo_pc : (s.goTo t).pc = t := rfl
@[simp] theorem goTo_run : (s.goTo t).run = s.run := rfl
@[simp] theorem goTo_faulted : (s.goTo t).faulted = s.faulted := rfl
@[simp] theorem goTo_halted : (s.goTo t).halted = s.halted := rfl
@[simp] theorem goTo_cause : (s.goTo t).cause = s.cause := rfl
@[simp] theorem goTo_fpc : (s.goTo t).fpc = s.fpc := rfl
@[simp] theorem goTo_finfo : (s.goTo t).finfo = s.finfo := rfl
@[simp] theorem goTo_irqen : (s.goTo t).irqen = s.irqen := rfl
@[simp] theorem goTo_irqstat : (s.goTo t).irqstat = s.irqstat := rfl
@[simp] theorem goTo_imem : (s.goTo t).imem = s.imem := rfl
@[simp] theorem goTo_dmem : (s.goTo t).dmem = s.dmem := rfl
@[simp] theorem goTo_cfg : (s.goTo t).cfg = s.cfg := rfl
@[simp] theorem goTo_pendingCtrl : (s.goTo t).pendingCtrl = s.pendingCtrl := rfl
@[simp] theorem goTo_turns : (s.goTo t).turns = s.turns := rfl
@[simp] theorem goTo_hostData : (s.goTo t).hostData = s.hostData := rfl
@[simp] theorem goTo_freeIndex : (s.goTo t).freeIndex = s.freeIndex := rfl

end

/-! ## `State.advance` -/

section
variable (s : State)

@[simp] theorem advance_r : (s.advance).r = s.r := rfl
@[simp] theorem advance_f : (s.advance).f = s.f := rfl
@[simp] theorem advance_p : (s.advance).p = s.p := rfl
@[simp] theorem advance_pc : (s.advance).pc = s.pc + 1#32 := rfl
@[simp] theorem advance_run : (s.advance).run = s.run := rfl
@[simp] theorem advance_faulted : (s.advance).faulted = s.faulted := rfl
@[simp] theorem advance_halted : (s.advance).halted = s.halted := rfl
@[simp] theorem advance_cause : (s.advance).cause = s.cause := rfl
@[simp] theorem advance_fpc : (s.advance).fpc = s.fpc := rfl
@[simp] theorem advance_finfo : (s.advance).finfo = s.finfo := rfl
@[simp] theorem advance_irqen : (s.advance).irqen = s.irqen := rfl
@[simp] theorem advance_irqstat : (s.advance).irqstat = s.irqstat := rfl
@[simp] theorem advance_imem : (s.advance).imem = s.imem := rfl
@[simp] theorem advance_dmem : (s.advance).dmem = s.dmem := rfl
@[simp] theorem advance_cfg : (s.advance).cfg = s.cfg := rfl
@[simp] theorem advance_pendingCtrl : (s.advance).pendingCtrl = s.pendingCtrl := rfl
@[simp] theorem advance_turns : (s.advance).turns = s.turns := rfl
@[simp] theorem advance_hostData : (s.advance).hostData = s.hostData := rfl
@[simp] theorem advance_freeIndex : (s.advance).freeIndex = s.freeIndex := rfl

end

/-! ## `State.setDmemWord` -/

section
variable (s : State) (j : Nat) (w : Word)

@[simp] theorem setDmemWord_r : (s.setDmemWord j w).r = s.r := rfl
@[simp] theorem setDmemWord_f : (s.setDmemWord j w).f = s.f := rfl
@[simp] theorem setDmemWord_p : (s.setDmemWord j w).p = s.p := rfl
@[simp] theorem setDmemWord_pc : (s.setDmemWord j w).pc = s.pc := rfl
@[simp] theorem setDmemWord_run : (s.setDmemWord j w).run = s.run := rfl
@[simp] theorem setDmemWord_faulted : (s.setDmemWord j w).faulted = s.faulted := rfl
@[simp] theorem setDmemWord_halted : (s.setDmemWord j w).halted = s.halted := rfl
@[simp] theorem setDmemWord_cause : (s.setDmemWord j w).cause = s.cause := rfl
@[simp] theorem setDmemWord_fpc : (s.setDmemWord j w).fpc = s.fpc := rfl
@[simp] theorem setDmemWord_finfo : (s.setDmemWord j w).finfo = s.finfo := rfl
@[simp] theorem setDmemWord_irqen : (s.setDmemWord j w).irqen = s.irqen := rfl
@[simp] theorem setDmemWord_irqstat : (s.setDmemWord j w).irqstat = s.irqstat := rfl
@[simp] theorem setDmemWord_imem : (s.setDmemWord j w).imem = s.imem := rfl
@[simp] theorem setDmemWord_dmem : (s.setDmemWord j w).dmem = memSetWord s.dmem j w := rfl
@[simp] theorem setDmemWord_cfg : (s.setDmemWord j w).cfg = s.cfg := rfl
@[simp] theorem setDmemWord_pendingCtrl : (s.setDmemWord j w).pendingCtrl = s.pendingCtrl := rfl
@[simp] theorem setDmemWord_turns : (s.setDmemWord j w).turns = s.turns := rfl
@[simp] theorem setDmemWord_hostData : (s.setDmemWord j w).hostData = s.hostData := rfl
@[simp] theorem setDmemWord_freeIndex : (s.setDmemWord j w).freeIndex = s.freeIndex := rfl

end

/-! ## `State.setDmemPair` -/

section
variable (s : State) (j : Nat) (v : DWord)

@[simp] theorem setDmemPair_r : (s.setDmemPair j v).r = s.r := rfl
@[simp] theorem setDmemPair_f : (s.setDmemPair j v).f = s.f := rfl
@[simp] theorem setDmemPair_p : (s.setDmemPair j v).p = s.p := rfl
@[simp] theorem setDmemPair_pc : (s.setDmemPair j v).pc = s.pc := rfl
@[simp] theorem setDmemPair_run : (s.setDmemPair j v).run = s.run := rfl
@[simp] theorem setDmemPair_faulted : (s.setDmemPair j v).faulted = s.faulted := rfl
@[simp] theorem setDmemPair_halted : (s.setDmemPair j v).halted = s.halted := rfl
@[simp] theorem setDmemPair_cause : (s.setDmemPair j v).cause = s.cause := rfl
@[simp] theorem setDmemPair_fpc : (s.setDmemPair j v).fpc = s.fpc := rfl
@[simp] theorem setDmemPair_finfo : (s.setDmemPair j v).finfo = s.finfo := rfl
@[simp] theorem setDmemPair_irqen : (s.setDmemPair j v).irqen = s.irqen := rfl
@[simp] theorem setDmemPair_irqstat : (s.setDmemPair j v).irqstat = s.irqstat := rfl
@[simp] theorem setDmemPair_imem : (s.setDmemPair j v).imem = s.imem := rfl
@[simp] theorem setDmemPair_dmem : (s.setDmemPair j v).dmem = memSetWord (memSetWord s.dmem j (v.extractLsb' 0 32)) (j + 1) (v.extractLsb' 32 32) := rfl
@[simp] theorem setDmemPair_cfg : (s.setDmemPair j v).cfg = s.cfg := rfl
@[simp] theorem setDmemPair_pendingCtrl : (s.setDmemPair j v).pendingCtrl = s.pendingCtrl := rfl
@[simp] theorem setDmemPair_turns : (s.setDmemPair j v).turns = s.turns := rfl
@[simp] theorem setDmemPair_hostData : (s.setDmemPair j v).hostData = s.hostData := rfl
@[simp] theorem setDmemPair_freeIndex : (s.setDmemPair j v).freeIndex = s.freeIndex := rfl

end

/-! ## `State.setImemWord` -/

section
variable (s : State) (j : Nat) (w : Word)

@[simp] theorem setImemWord_r : (s.setImemWord j w).r = s.r := rfl
@[simp] theorem setImemWord_f : (s.setImemWord j w).f = s.f := rfl
@[simp] theorem setImemWord_p : (s.setImemWord j w).p = s.p := rfl
@[simp] theorem setImemWord_pc : (s.setImemWord j w).pc = s.pc := rfl
@[simp] theorem setImemWord_run : (s.setImemWord j w).run = s.run := rfl
@[simp] theorem setImemWord_faulted : (s.setImemWord j w).faulted = s.faulted := rfl
@[simp] theorem setImemWord_halted : (s.setImemWord j w).halted = s.halted := rfl
@[simp] theorem setImemWord_cause : (s.setImemWord j w).cause = s.cause := rfl
@[simp] theorem setImemWord_fpc : (s.setImemWord j w).fpc = s.fpc := rfl
@[simp] theorem setImemWord_finfo : (s.setImemWord j w).finfo = s.finfo := rfl
@[simp] theorem setImemWord_irqen : (s.setImemWord j w).irqen = s.irqen := rfl
@[simp] theorem setImemWord_irqstat : (s.setImemWord j w).irqstat = s.irqstat := rfl
@[simp] theorem setImemWord_imem : (s.setImemWord j w).imem = memSetWord s.imem j w := rfl
@[simp] theorem setImemWord_dmem : (s.setImemWord j w).dmem = s.dmem := rfl
@[simp] theorem setImemWord_cfg : (s.setImemWord j w).cfg = s.cfg := rfl
@[simp] theorem setImemWord_pendingCtrl : (s.setImemWord j w).pendingCtrl = s.pendingCtrl := rfl
@[simp] theorem setImemWord_turns : (s.setImemWord j w).turns = s.turns := rfl
@[simp] theorem setImemWord_hostData : (s.setImemWord j w).hostData = s.hostData := rfl
@[simp] theorem setImemWord_freeIndex : (s.setImemWord j w).freeIndex = s.freeIndex := rfl

end

/-! ## `takeFault` -/

section
variable (s : State) (record : FaultRecord)

@[simp] theorem takeFault_r : (takeFault record s).r = s.r := rfl
@[simp] theorem takeFault_f : (takeFault record s).f = s.f := rfl
@[simp] theorem takeFault_p : (takeFault record s).p = s.p := rfl
@[simp] theorem takeFault_pc : (takeFault record s).pc = s.pc := rfl
@[simp] theorem takeFault_run : (takeFault record s).run = false := rfl
@[simp] theorem takeFault_faulted : (takeFault record s).faulted = true := rfl
@[simp] theorem takeFault_halted : (takeFault record s).halted = s.halted := rfl
@[simp] theorem takeFault_cause : (takeFault record s).cause = causeCode record.cause := rfl
@[simp] theorem takeFault_fpc : (takeFault record s).fpc = s.pc := rfl
@[simp] theorem takeFault_finfo : (takeFault record s).finfo = record.info := rfl
@[simp] theorem takeFault_irqen : (takeFault record s).irqen = s.irqen := rfl
@[simp] theorem takeFault_irqstat : (takeFault record s).irqstat = setFaultPending s.irqstat := rfl
@[simp] theorem takeFault_imem : (takeFault record s).imem = s.imem := rfl
@[simp] theorem takeFault_dmem : (takeFault record s).dmem = s.dmem := rfl
@[simp] theorem takeFault_cfg : (takeFault record s).cfg = s.cfg := rfl
@[simp] theorem takeFault_pendingCtrl : (takeFault record s).pendingCtrl = s.pendingCtrl := rfl
@[simp] theorem takeFault_turns : (takeFault record s).turns = s.turns := rfl
@[simp] theorem takeFault_hostData : (takeFault record s).hostData = s.hostData := rfl
@[simp] theorem takeFault_freeIndex : (takeFault record s).freeIndex = s.freeIndex := rfl

end

/-! ## `haltSequencer` -/

section
variable (s : State)

@[simp] theorem haltSequencer_r : (haltSequencer s).r = s.r := rfl
@[simp] theorem haltSequencer_f : (haltSequencer s).f = s.f := rfl
@[simp] theorem haltSequencer_p : (haltSequencer s).p = s.p := rfl
@[simp] theorem haltSequencer_pc : (haltSequencer s).pc = s.pc := rfl
@[simp] theorem haltSequencer_run : (haltSequencer s).run = false := rfl
@[simp] theorem haltSequencer_faulted : (haltSequencer s).faulted = s.faulted := rfl
@[simp] theorem haltSequencer_halted : (haltSequencer s).halted = true := rfl
@[simp] theorem haltSequencer_cause : (haltSequencer s).cause = s.cause := rfl
@[simp] theorem haltSequencer_fpc : (haltSequencer s).fpc = s.fpc := rfl
@[simp] theorem haltSequencer_finfo : (haltSequencer s).finfo = s.finfo := rfl
@[simp] theorem haltSequencer_irqen : (haltSequencer s).irqen = s.irqen := rfl
@[simp] theorem haltSequencer_irqstat : (haltSequencer s).irqstat = setHaltPending s.irqstat := rfl
@[simp] theorem haltSequencer_imem : (haltSequencer s).imem = s.imem := rfl
@[simp] theorem haltSequencer_dmem : (haltSequencer s).dmem = s.dmem := rfl
@[simp] theorem haltSequencer_cfg : (haltSequencer s).cfg = s.cfg := rfl
@[simp] theorem haltSequencer_pendingCtrl : (haltSequencer s).pendingCtrl = s.pendingCtrl := rfl
@[simp] theorem haltSequencer_turns : (haltSequencer s).turns = s.turns := rfl
@[simp] theorem haltSequencer_hostData : (haltSequencer s).hostData = s.hostData := rfl
@[simp] theorem haltSequencer_freeIndex : (haltSequencer s).freeIndex = s.freeIndex := rfl

end

/-! ## `stopSequencer` -/

section
variable (s : State)

@[simp] theorem stopSequencer_r : (stopSequencer s).r = s.r := rfl
@[simp] theorem stopSequencer_f : (stopSequencer s).f = s.f := rfl
@[simp] theorem stopSequencer_p : (stopSequencer s).p = s.p := rfl
@[simp] theorem stopSequencer_pc : (stopSequencer s).pc = s.pc := rfl
@[simp] theorem stopSequencer_run : (stopSequencer s).run = false := rfl
@[simp] theorem stopSequencer_faulted : (stopSequencer s).faulted = s.faulted := rfl
@[simp] theorem stopSequencer_halted : (stopSequencer s).halted = s.halted := rfl
@[simp] theorem stopSequencer_cause : (stopSequencer s).cause = s.cause := rfl
@[simp] theorem stopSequencer_fpc : (stopSequencer s).fpc = s.fpc := rfl
@[simp] theorem stopSequencer_finfo : (stopSequencer s).finfo = s.finfo := rfl
@[simp] theorem stopSequencer_irqen : (stopSequencer s).irqen = s.irqen := rfl
@[simp] theorem stopSequencer_irqstat : (stopSequencer s).irqstat = s.irqstat := rfl
@[simp] theorem stopSequencer_imem : (stopSequencer s).imem = s.imem := rfl
@[simp] theorem stopSequencer_dmem : (stopSequencer s).dmem = s.dmem := rfl
@[simp] theorem stopSequencer_cfg : (stopSequencer s).cfg = s.cfg := rfl
@[simp] theorem stopSequencer_pendingCtrl : (stopSequencer s).pendingCtrl = s.pendingCtrl := rfl
@[simp] theorem stopSequencer_turns : (stopSequencer s).turns = s.turns := rfl
@[simp] theorem stopSequencer_hostData : (stopSequencer s).hostData = s.hostData := rfl
@[simp] theorem stopSequencer_freeIndex : (stopSequencer s).freeIndex = s.freeIndex := rfl

end

/-! ## `clearFault` -/

section
variable (s : State)

@[simp] theorem clearFault_r : (clearFault s).r = s.r := by
  unfold clearFault; split <;> rfl
@[simp] theorem clearFault_f : (clearFault s).f = s.f := by
  unfold clearFault; split <;> rfl
@[simp] theorem clearFault_p : (clearFault s).p = s.p := by
  unfold clearFault; split <;> rfl
@[simp] theorem clearFault_pc : (clearFault s).pc = s.pc := by
  unfold clearFault; split <;> rfl
@[simp] theorem clearFault_run : (clearFault s).run = s.run := by
  unfold clearFault; split <;> rfl
@[simp] theorem clearFault_faulted : (clearFault s).faulted = (s.run && s.faulted) := by
  cases h : s.run <;> simp [clearFault, h]
@[simp] theorem clearFault_halted : (clearFault s).halted = s.halted := by
  unfold clearFault; split <;> rfl
@[simp] theorem clearFault_cause : (clearFault s).cause = if s.run then s.cause else 0#8 := by
  cases h : s.run <;> simp [clearFault, h]
@[simp] theorem clearFault_fpc : (clearFault s).fpc = if s.run then s.fpc else 0#32 := by
  cases h : s.run <;> simp [clearFault, h]
@[simp] theorem clearFault_finfo : (clearFault s).finfo = if s.run then s.finfo else 0#32 := by
  cases h : s.run <;> simp [clearFault, h]
@[simp] theorem clearFault_irqen : (clearFault s).irqen = s.irqen := by
  unfold clearFault; split <;> rfl
@[simp] theorem clearFault_irqstat : (clearFault s).irqstat = s.irqstat := by
  unfold clearFault; split <;> rfl
@[simp] theorem clearFault_imem : (clearFault s).imem = s.imem := by
  unfold clearFault; split <;> rfl
@[simp] theorem clearFault_dmem : (clearFault s).dmem = s.dmem := by
  unfold clearFault; split <;> rfl
@[simp] theorem clearFault_cfg : (clearFault s).cfg = s.cfg := by
  unfold clearFault; split <;> rfl
@[simp] theorem clearFault_pendingCtrl : (clearFault s).pendingCtrl = s.pendingCtrl := by
  unfold clearFault; split <;> rfl
@[simp] theorem clearFault_turns : (clearFault s).turns = s.turns := by
  unfold clearFault; split <;> rfl
@[simp] theorem clearFault_hostData : (clearFault s).hostData = s.hostData := by
  unfold clearFault; split <;> rfl
@[simp] theorem clearFault_freeIndex : (clearFault s).freeIndex = s.freeIndex := by
  unfold clearFault; split <;> rfl

end

/-! ## `startSequencer` -/

section
variable (s : State)

@[simp] theorem startSequencer_r : (startSequencer s).r = s.r := by
  unfold startSequencer; split <;> rfl
@[simp] theorem startSequencer_f : (startSequencer s).f = s.f := by
  unfold startSequencer; split <;> rfl
@[simp] theorem startSequencer_p : (startSequencer s).p = s.p := by
  unfold startSequencer; split <;> rfl
@[simp] theorem startSequencer_pc : (startSequencer s).pc = s.pc := by
  unfold startSequencer; split <;> rfl
@[simp] theorem startSequencer_run : (startSequencer s).run = (s.run || !s.faulted) := by
  cases h : s.run <;> cases g : s.faulted <;> simp [startSequencer, h, g]
@[simp] theorem startSequencer_faulted : (startSequencer s).faulted = s.faulted := by
  unfold startSequencer; split <;> rfl
@[simp] theorem startSequencer_halted : (startSequencer s).halted = (s.halted && (s.run || s.faulted)) := by
  cases h : s.run <;> cases g : s.faulted <;> simp [startSequencer, h, g]
@[simp] theorem startSequencer_cause : (startSequencer s).cause = s.cause := by
  unfold startSequencer; split <;> rfl
@[simp] theorem startSequencer_fpc : (startSequencer s).fpc = s.fpc := by
  unfold startSequencer; split <;> rfl
@[simp] theorem startSequencer_finfo : (startSequencer s).finfo = s.finfo := by
  unfold startSequencer; split <;> rfl
@[simp] theorem startSequencer_irqen : (startSequencer s).irqen = s.irqen := by
  unfold startSequencer; split <;> rfl
@[simp] theorem startSequencer_irqstat : (startSequencer s).irqstat = s.irqstat := by
  unfold startSequencer; split <;> rfl
@[simp] theorem startSequencer_imem : (startSequencer s).imem = s.imem := by
  unfold startSequencer; split <;> rfl
@[simp] theorem startSequencer_dmem : (startSequencer s).dmem = s.dmem := by
  unfold startSequencer; split <;> rfl
@[simp] theorem startSequencer_cfg : (startSequencer s).cfg = s.cfg := by
  unfold startSequencer; split <;> rfl
@[simp] theorem startSequencer_pendingCtrl : (startSequencer s).pendingCtrl = s.pendingCtrl := by
  unfold startSequencer; split <;> rfl
@[simp] theorem startSequencer_turns : (startSequencer s).turns = s.turns := by
  unfold startSequencer; split <;> rfl
@[simp] theorem startSequencer_hostData : (startSequencer s).hostData = s.hostData := by
  unfold startSequencer; split <;> rfl
@[simp] theorem startSequencer_freeIndex : (startSequencer s).freeIndex = s.freeIndex := by
  unfold startSequencer; split <;> rfl

end

end Sys2Proof.Machine
end

