-- ==== Sys2Proof/Laws/Memory.lean ====
section
/-! SUPPORT. The laws of a memory: a read after a write, the canonical form, and the words that exist. The read
laws hold of every list of cells; only the canonical form needs `Memory.wf`. -/

namespace Sys2Proof.Machine

/-! ## Bytes -/

@[simp] theorem memByte_nil (a : Nat) : memByte [] a = unlistedByte := rfl

theorem memByte_cons (cell : Host.Cell) (m : Memory) (a : Nat) :
    memByte (cell :: m) a = if a = cell.1 then cell.2 else memByte m a := rfl

theorem memByte_erase_same (m : Memory) (a : Nat) : memByte (memErase m a) a = unlistedByte := by
  induction m with
  | nil => rfl
  | cons cell m ih =>
    by_cases h : cell.1 = a
    · simpa [memErase, h] using ih
    · have : memErase (cell :: m) a = cell :: memErase m a := by simp [memErase, h]
      rw [this, memByte_cons, if_neg (fun e => h e.symm), ih]

theorem memByte_erase_other (m : Memory) {a b : Nat} (h : b ≠ a) : memByte (memErase m a) b = memByte m b := by
  induction m with
  | nil => rfl
  | cons cell m ih =>
    by_cases hc : cell.1 = a
    · have : memErase (cell :: m) a = memErase m a := by simp [memErase, hc]
      rw [this, ih, memByte_cons, if_neg (by rw [hc]; exact h)]
    · have : memErase (cell :: m) a = cell :: memErase m a := by simp [memErase, hc]
      rw [this, memByte_cons, memByte_cons, ih]

theorem erase_no_key (m : Memory) (a : Nat) : ∀ cell ∈ memErase m a, cell.1 ≠ a := by
  intro cell h
  simpa using (List.mem_filter.mp h).2

theorem memByte_insert (m : Memory) (a b : Nat) (v : Byte) (h : ∀ cell ∈ m, cell.1 ≠ a) :
    memByte (memInsert a v m) b = if b = a then v else memByte m b := by
  induction m with
  | nil => rfl
  | cons cell m ih =>
    unfold memInsert
    split
    · rfl
    · rw [memByte_cons, memByte_cons, ih (fun c hc => h c (List.mem_cons_of_mem _ hc))]
      by_cases hb : b = a
      · have : b ≠ cell.1 := fun e => h cell List.mem_cons_self (e.symm.trans hb)
        simp [hb, hb ▸ this]
      · simp [hb]

/-- Read after write of one byte. -/
theorem memByte_setByte (m : Memory) (a b : Nat) (v : Byte) :
    memByte (memSetByte m a v) b = if b = a then v else memByte m b := by
  unfold memSetByte
  split
  · next hv =>
    by_cases h : b = a
    · subst h; simp [memByte_erase_same, hv]
    · simp [memByte_erase_other _ h, h]
  · rw [memByte_insert _ _ _ _ (erase_no_key m a)]
    by_cases h : b = a
    · simp [h]
    · simp [memByte_erase_other _ h, h]

/-! ## Words -/

theorem bytesWord_wordBytes (w : Word) :
    bytesWord (w.extractLsb' 0 8) (w.extractLsb' 8 8) (w.extractLsb' 16 8) (w.extractLsb' 24 8) = w := by
  apply BitVec.eq_of_getLsbD_eq
  intro i hi
  simp only [bytesWord, BitVec.getLsbD_append, BitVec.getLsbD_extractLsb']
  by_cases h1 : i < 8
  · simp [h1]
  · by_cases h2 : i < 16
    · simp [h1, show i - 8 < 8 by omega, show 8 + (i - 8) = i by omega]
    · by_cases h3 : i < 24
      · simp [h1, show ¬ i - 8 < 8 by omega, show i - 8 - 8 < 8 by omega, show 16 + (i - 8 - 8) = i by omega]
      · simp [h1, show ¬ i - 8 < 8 by omega, show ¬ i - 8 - 8 < 8 by omega, show i - 8 - 8 - 8 < 8 by omega,
          show 24 + (i - 8 - 8 - 8) = i by omega]

/-- Every byte after the write of a word. -/
theorem memByte_setWord (m : Memory) (j : Nat) (w : Word) (b : Nat) :
    memByte (memSetWord m j w) b =
      if b = 4 * j + 3 then w.extractLsb' 24 8
      else if b = 4 * j + 2 then w.extractLsb' 16 8
      else if b = 4 * j + 1 then w.extractLsb' 8 8
      else if b = 4 * j then w.extractLsb' 0 8
      else memByte m b := by
  simp only [memSetWord, memByte_setByte]

/-- A byte outside the written word reads as before. -/
theorem memByte_setWord_other (m : Memory) (j : Nat) (w : Word) (b : Nat) (h : b < 4 * j ∨ 4 * (j + 1) ≤ b) :
    memByte (memSetWord m j w) b = memByte m b := by
  rw [memByte_setWord, if_neg (by omega), if_neg (by omega), if_neg (by omega), if_neg (by omega)]

/-- Read after write of one word. -/
@[simp] theorem memWord_setWord_same (m : Memory) (j : Nat) (w : Word) : memWord (memSetWord m j w) j = w := by
  have h0 : memByte (memSetWord m j w) (4 * j) = w.extractLsb' 0 8 := by
    rw [memByte_setWord, if_neg (by omega), if_neg (by omega), if_neg (by omega), if_pos rfl]
  have h1 : memByte (memSetWord m j w) (4 * j + 1) = w.extractLsb' 8 8 := by
    rw [memByte_setWord, if_neg (by omega), if_neg (by omega), if_pos rfl]
  have h2 : memByte (memSetWord m j w) (4 * j + 2) = w.extractLsb' 16 8 := by
    rw [memByte_setWord, if_neg (by omega), if_pos rfl]
  have h3 : memByte (memSetWord m j w) (4 * j + 3) = w.extractLsb' 24 8 := by
    rw [memByte_setWord, if_pos rfl]
  rw [memWord, h0, h1, h2, h3, bytesWord_wordBytes]

/-- A word other than the written one reads as before. -/
theorem memWord_setWord_other (m : Memory) (w : Word) {j k : Nat} (h : k ≠ j) :
    memWord (memSetWord m j w) k = memWord m k := by
  simp only [memWord]
  rw [memByte_setWord_other _ _ _ _ (by omega), memByte_setWord_other _ _ _ _ (by omega),
    memByte_setWord_other _ _ _ _ (by omega), memByte_setWord_other _ _ _ _ (by omega)]

/-- Every word after the write of a word. -/
theorem memWord_setWord (m : Memory) (j k : Nat) (w : Word) :
    memWord (memSetWord m j w) k = if k = j then w else memWord m k := by
  by_cases h : k = j
  · subst h; simp
  · simp [h, memWord_setWord_other _ _ h]

/-- Every word after a fill of `n` words from `t`. -/
theorem memWord_fillWords (g : Nat → Word) (t n : Nat) (m : Memory) (k : Nat) :
    memWord (fillWords g t n m) k = if t ≤ k ∧ k < t + n then g (k - t) else memWord m k := by
  induction n with
  | zero => rw [fillWords, if_neg (by omega)]
  | succ n ih =>
    rw [fillWords, memWord_setWord, ih]
    by_cases h : k = t + n
    · subst h; simp
    · rw [if_neg h]
      by_cases h2 : t ≤ k ∧ k < t + n
      · rw [if_pos h2, if_pos (by omega)]
      · rw [if_neg h2, if_neg (by omega)]

/-- A byte outside the filled words reads as before. -/
theorem memByte_fillWords_other (g : Nat → Word) (t n : Nat) (m : Memory) (b : Nat)
    (h : b < 4 * t ∨ 4 * (t + n) ≤ b) : memByte (fillWords g t n m) b = memByte m b := by
  induction n with
  | zero => rfl
  | succ n ih => rw [fillWords, memByte_setWord_other _ _ _ _ (by omega), ih (by omega)]

/-! ## The canonical form -/

theorem wf_iff (m : Memory) :
    Memory.wf m = true ↔ m.Pairwise (fun x y => x.1 < y.1) ∧ ∀ cell ∈ m, cell.2 ≠ unlistedByte := by
  simp [Memory.wf]

theorem within_iff (m : Memory) (n : Nat) : Memory.within m n = true ↔ ∀ cell ∈ m, cell.1 < 4 * n := by
  simp [Memory.within]

theorem wf_erase {m : Memory} (a : Nat) (h : Memory.wf m = true) : Memory.wf (memErase m a) = true := by
  rw [wf_iff] at h ⊢
  exact ⟨h.1.filter _, fun cell hc => h.2 cell (List.mem_filter.mp hc).1⟩

theorem mem_insert {a : Nat} {v : Byte} {m : Memory} {cell : Host.Cell} (h : cell ∈ memInsert a v m) :
    cell = (a, v) ∨ cell ∈ m := by
  induction m with
  | nil => simpa [memInsert] using h
  | cons c m ih =>
    unfold memInsert at h
    split at h
    · simpa using h
    · rcases List.mem_cons.mp h with h | h
      · exact .inr (h ▸ List.mem_cons_self)
      · exact (ih h).imp id (List.mem_cons_of_mem _)

theorem pairwise_insert {a : Nat} {v : Byte} {m : Memory} (h : m.Pairwise (fun x y => x.1 < y.1))
    (hk : ∀ cell ∈ m, cell.1 ≠ a) : (memInsert a v m).Pairwise (fun x y => x.1 < y.1) := by
  induction m with
  | nil => simp [memInsert]
  | cons c m ih =>
    obtain ⟨hc, hm⟩ := List.pairwise_cons.mp h
    unfold memInsert
    split
    · next hlt =>
      refine List.pairwise_cons.mpr ⟨fun x hx => ?_, h⟩
      rcases List.mem_cons.mp hx with rfl | hx
      · exact hlt
      · exact Nat.lt_trans hlt (hc x hx)
    · next hlt =>
      refine List.pairwise_cons.mpr ⟨fun x hx => ?_, ih hm (fun x hx => hk x (List.mem_cons_of_mem _ hx))⟩
      rcases mem_insert hx with rfl | hx
      · have := hk c List.mem_cons_self
        simp only; omega
      · exact hc x hx

/-- A byte write keeps the canonical form. -/
theorem wf_setByte {m : Memory} (a : Nat) (v : Byte) (h : Memory.wf m = true) :
    Memory.wf (memSetByte m a v) = true := by
  unfold memSetByte
  split
  · exact wf_erase a h
  · next hv =>
    have he := (wf_iff _).mp (wf_erase a h)
    refine (wf_iff _).mpr ⟨pairwise_insert he.1 (erase_no_key m a), fun cell hc => ?_⟩
    rcases mem_insert hc with rfl | hc
    · exact hv
    · exact he.2 cell hc

/-- A word write keeps the canonical form. -/
theorem wf_setWord {m : Memory} (j : Nat) (w : Word) (h : Memory.wf m = true) :
    Memory.wf (memSetWord m j w) = true :=
  wf_setByte _ _ (wf_setByte _ _ (wf_setByte _ _ (wf_setByte _ _ h)))

/-- A fill keeps the canonical form. -/
theorem wf_fillWords {m : Memory} (g : Nat → Word) (t n : Nat) (h : Memory.wf m = true) :
    Memory.wf (fillWords g t n m) = true := by
  induction n with
  | zero => exact h
  | succ n ih => exact wf_setWord _ _ ih

theorem within_setByte {m : Memory} {n : Nat} (a : Nat) (v : Byte) (h : Memory.within m n = true) (ha : a < 4 * n) :
    Memory.within (memSetByte m a v) n = true := by
  rw [within_iff] at h ⊢
  have he : ∀ cell ∈ memErase m a, cell.1 < 4 * n := fun cell hc => h cell (List.mem_filter.mp hc).1
  unfold memSetByte
  split
  · exact he
  · intro cell hc
    rcases mem_insert hc with rfl | hc
    · exact ha
    · exact he cell hc

/-- A write of a word that exists lists no byte beyond the memory. -/
theorem within_setWord {m : Memory} {n : Nat} (j : Nat) (w : Word) (h : Memory.within m n = true) (hj : j < n) :
    Memory.within (memSetWord m j w) n = true :=
  within_setByte _ _ (within_setByte _ _ (within_setByte _ _ (within_setByte _ _ h (by omega)) (by omega))
    (by omega)) (by omega)

/-- A fill of words that exist lists no byte beyond the memory. -/
theorem within_fillWords {m : Memory} {n : Nat} (g : Nat → Word) (t k : Nat) (h : Memory.within m n = true)
    (hk : t + k ≤ n) : Memory.within (fillWords g t k m) n = true := by
  induction k with
  | zero => exact h
  | succ k ih => exact within_setWord _ _ (ih (by omega)) (by omega)

/-- Equal bytes everywhere mean equal memories, of two memories in canonical form. -/
theorem memory_ext {m n : Memory} (hm : Memory.wf m = true) (hn : Memory.wf n = true)
    (h : ∀ a, memByte m a = memByte n a) : m = n := by
  induction m generalizing n with
  | nil =>
    cases n with
    | nil => rfl
    | cons c n =>
      have := h c.1
      rw [memByte_cons, if_pos rfl] at this
      exact absurd this.symm (((wf_iff _).mp hn).2 c List.mem_cons_self)
  | cons c m ih =>
    obtain ⟨pm, vm⟩ := (wf_iff _).mp hm
    obtain ⟨cm, pm'⟩ := List.pairwise_cons.mp pm
    have low : ∀ (l : Memory) (b : Nat), (∀ x ∈ l, b < x.1) → memByte l b = unlistedByte := by
      intro l b hl
      induction l with
      | nil => rfl
      | cons x l ihl =>
        rw [memByte_cons, if_neg (by have := hl x List.mem_cons_self; omega),
          ihl (fun y hy => hl y (List.mem_cons_of_mem _ hy))]
    cases n with
    | nil =>
      have := h c.1
      rw [memByte_cons, if_pos rfl] at this
      exact absurd this (vm c List.mem_cons_self)
    | cons d n =>
      obtain ⟨pn, vn⟩ := (wf_iff _).mp hn
      obtain ⟨dn, pn'⟩ := List.pairwise_cons.mp pn
      have key : c.1 = d.1 := by
        rcases Nat.lt_trichotomy c.1 d.1 with hlt | heq | hgt
        · have e := h c.1
          rw [memByte_cons, if_pos rfl, low (d :: n) c.1 (fun x hx => by
            rcases List.mem_cons.mp hx with rfl | hx
            · exact hlt
            · exact Nat.lt_trans hlt (dn x hx))] at e
          exact absurd e (vm c List.mem_cons_self)
        · exact heq
        · have e := h d.1
          rw [memByte_cons d, if_pos rfl, low (c :: m) d.1 (fun x hx => by
            rcases List.mem_cons.mp hx with rfl | hx
            · exact hgt
            · exact Nat.lt_trans hgt (cm x hx))] at e
          exact absurd e.symm (vn d List.mem_cons_self)
      have val : c.2 = d.2 := by
        have e := h c.1
        rwa [memByte_cons, if_pos rfl, memByte_cons, if_pos key] at e
      have rest : m = n := by
        refine ih ((wf_iff _).mpr ⟨pm', fun x hx => vm x (List.mem_cons_of_mem _ hx)⟩)
          ((wf_iff _).mpr ⟨pn', fun x hx => vn x (List.mem_cons_of_mem _ hx)⟩) (fun a => ?_)
        by_cases ha : a = c.1
        · subst ha
          rw [low m c.1 cm, low n c.1 (key ▸ dn)]
        · have e := h a
          rwa [memByte_cons, if_neg ha, memByte_cons, if_neg (key ▸ ha)] at e
      rw [Prod.ext key val, rest]

end Sys2Proof.Machine
end

