-- ==== Sys2Proof/Laws/Registers.lean ====
section
/-! SUPPORT. The laws of the register files: a read after a write, the hard-wired `R[0]`, and what a read sees of
the updates that touch no register. -/

namespace Sys2Proof.Machine

/-! ## Reads depend on one field each -/

theorem readR_congr {s t : State} (h : t.r = s.r) (k : RReg) : t.readR k = s.readR k := by simp [State.readR, h]

theorem readF_congr {s t : State} (h : t.f = s.f) (k : FReg) : t.readF k = s.readF k := by simp [State.readF, h]

theorem readP_congr {s t : State} (h : t.p = s.p) (k : PReg) : t.readP k = s.readP k := by simp [State.readP, h]

theorem dmemByte_congr {s t : State} (h : t.dmem = s.dmem) (a : Nat) : t.dmemByte a = s.dmemByte a := by
  simp [State.dmemByte, h]

theorem imemByte_congr {s t : State} (h : t.imem = s.imem) (a : Nat) : t.imemByte a = s.imemByte a := by
  simp [State.imemByte, h]

/-! ## `R` -/

/-- `R[0]` reads as 0 in every state (R31). -/
@[simp] theorem readR_zero (s : State) : s.readR 0#4 = 0#32 := rfl

/-- `R[a]` after a write to it (R31). -/
@[simp] theorem readR_writeR_same (s : State) (a : RReg) (v : Word) :
    (s.writeR a v).readR a = if a = 0#4 then 0#32 else v := by
  by_cases h : a = 0#4
  · simp [State.readR, h]
  · simp only [State.readR, if_neg h, writeR_r]
    exact Vector.getElem_setIfInBounds_self _

theorem toNat_pred_ne {a k : RReg} (ha : a ≠ 0#4) (hk : k ≠ 0#4) (h : k ≠ a) : a.toNat - 1 ≠ k.toNat - 1 := by
  intro e
  have h1 : a.toNat ≠ 0 := fun x => ha (BitVec.eq_of_toNat_eq x)
  have h2 : k.toNat ≠ 0 := fun x => hk (BitVec.eq_of_toNat_eq x)
  exact h (BitVec.eq_of_toNat_eq (by omega))

/-- Another `R` register after a write (R31). -/
theorem readR_writeR_other (s : State) {a k : RReg} (v : Word) (h : k ≠ a) :
    (s.writeR a v).readR k = s.readR k := by
  by_cases ha : a = 0#4
  · exact readR_congr (by simp [ha]) k
  · by_cases hk : k = 0#4
    · subst hk; rfl
    · simp only [State.readR, if_neg hk, writeR_r, if_neg ha]
      exact Vector.getElem_setIfInBounds_ne _ (toNat_pred_ne ha hk h)

/-! ## `F` -/

@[simp] theorem readF_writeF_same (s : State) (a : FReg) (v : Word) : (s.writeF a v).readF a = v := by
  simp only [State.readF, writeF_f]
  exact Vector.getElem_setIfInBounds_self _

theorem readF_writeF_other (s : State) {a k : FReg} (v : Word) (h : k ≠ a) :
    (s.writeF a v).readF k = s.readF k := by
  simp only [State.readF, writeF_f]
  exact Vector.getElem_setIfInBounds_ne _ (fun e => h (BitVec.eq_of_toNat_eq e.symm))

/-! ## `P` -/

@[simp] theorem readP_writeP_same (s : State) (a : PReg) (v : DWord) : (s.writeP a v).readP a = v := by
  simp only [State.readP, writeP_p]
  exact Vector.getElem_setIfInBounds_self _

theorem readP_writeP_other (s : State) {a k : PReg} (v : DWord) (h : k ≠ a) :
    (s.writeP a v).readP k = s.readP k := by
  simp only [State.readP, writeP_p]
  exact Vector.getElem_setIfInBounds_ne _ (fun e => h (BitVec.eq_of_toNat_eq e.symm))

/-! ## Reads across the other updates -/

section
variable (s : State) (k : RReg) (m : FReg) (n : PReg)

@[simp] theorem readR_writeF (a : FReg) (v : Word) : (s.writeF a v).readR k = s.readR k := rfl
@[simp] theorem readR_writeP (a : PReg) (v : DWord) : (s.writeP a v).readR k = s.readR k := rfl
@[simp] theorem readR_goTo (t : Word) : (s.goTo t).readR k = s.readR k := rfl
@[simp] theorem readR_advance : s.advance.readR k = s.readR k := rfl
@[simp] theorem readR_setDmemWord (j : Nat) (w : Word) : (s.setDmemWord j w).readR k = s.readR k := rfl
@[simp] theorem readR_setDmemPair (j : Nat) (v : DWord) : (s.setDmemPair j v).readR k = s.readR k := rfl
@[simp] theorem readR_setImemWord (j : Nat) (w : Word) : (s.setImemWord j w).readR k = s.readR k := rfl
@[simp] theorem readR_takeFault (record : FaultRecord) : (takeFault record s).readR k = s.readR k := rfl
@[simp] theorem readR_haltSequencer : (haltSequencer s).readR k = s.readR k := rfl

@[simp] theorem readF_writeR (a : RReg) (v : Word) : (s.writeR a v).readF m = s.readF m := rfl
@[simp] theorem readF_writeP (a : PReg) (v : DWord) : (s.writeP a v).readF m = s.readF m := rfl
@[simp] theorem readF_goTo (t : Word) : (s.goTo t).readF m = s.readF m := rfl
@[simp] theorem readF_advance : s.advance.readF m = s.readF m := rfl
@[simp] theorem readF_setDmemWord (j : Nat) (w : Word) : (s.setDmemWord j w).readF m = s.readF m := rfl
@[simp] theorem readF_setDmemPair (j : Nat) (v : DWord) : (s.setDmemPair j v).readF m = s.readF m := rfl
@[simp] theorem readF_setImemWord (j : Nat) (w : Word) : (s.setImemWord j w).readF m = s.readF m := rfl
@[simp] theorem readF_takeFault (record : FaultRecord) : (takeFault record s).readF m = s.readF m := rfl
@[simp] theorem readF_haltSequencer : (haltSequencer s).readF m = s.readF m := rfl

@[simp] theorem readP_writeR (a : RReg) (v : Word) : (s.writeR a v).readP n = s.readP n := rfl
@[simp] theorem readP_writeF (a : FReg) (v : Word) : (s.writeF a v).readP n = s.readP n := rfl
@[simp] theorem readP_goTo (t : Word) : (s.goTo t).readP n = s.readP n := rfl
@[simp] theorem readP_advance : s.advance.readP n = s.readP n := rfl
@[simp] theorem readP_setDmemWord (j : Nat) (w : Word) : (s.setDmemWord j w).readP n = s.readP n := rfl
@[simp] theorem readP_setDmemPair (j : Nat) (v : DWord) : (s.setDmemPair j v).readP n = s.readP n := rfl
@[simp] theorem readP_setImemWord (j : Nat) (w : Word) : (s.setImemWord j w).readP n = s.readP n := rfl
@[simp] theorem readP_takeFault (record : FaultRecord) : (takeFault record s).readP n = s.readP n := rfl
@[simp] theorem readP_haltSequencer : (haltSequencer s).readP n = s.readP n := rfl

end

/-! ## Data words across updates -/

section
variable (s : State) (j : Nat)

@[simp] theorem dmemWord_writeR (a : RReg) (v : Word) : (s.writeR a v).dmemWord j = s.dmemWord j := rfl
@[simp] theorem dmemWord_writeF (a : FReg) (v : Word) : (s.writeF a v).dmemWord j = s.dmemWord j := rfl
@[simp] theorem dmemWord_writeP (a : PReg) (v : DWord) : (s.writeP a v).dmemWord j = s.dmemWord j := rfl
@[simp] theorem dmemWord_goTo (t : Word) : (s.goTo t).dmemWord j = s.dmemWord j := rfl
@[simp] theorem dmemWord_advance : s.advance.dmemWord j = s.dmemWord j := rfl
@[simp] theorem dmemWord_takeFault (record : FaultRecord) : (takeFault record s).dmemWord j = s.dmemWord j := rfl

/-- Every data word after the write of one. -/
theorem dmemWord_setDmemWord (k : Nat) (w : Word) :
    (s.setDmemWord k w).dmemWord j = if j = k then w else s.dmemWord j := memWord_setWord s.dmem k j w

/-- A data byte outside the written word reads as before. -/
theorem dmemByte_setDmemWord_other (k : Nat) (w : Word) (a : Nat) (h : a < 4 * k ∨ 4 * (k + 1) ≤ a) :
    (s.setDmemWord k w).dmemByte a = s.dmemByte a := memByte_setWord_other s.dmem k w a h

/-- A data byte outside the written pair reads as before. -/
theorem dmemByte_setDmemPair_other (k : Nat) (v : DWord) (a : Nat) (h : a < 4 * k ∨ 4 * (k + 2) ≤ a) :
    (s.setDmemPair k v).dmemByte a = s.dmemByte a := by
  unfold State.setDmemPair
  rw [dmemByte_setDmemWord_other _ _ _ _ (by omega), dmemByte_setDmemWord_other _ _ _ _ (by omega)]

end

theorem append_halves (v : DWord) : v.extractLsb' 32 32 ++ v.extractLsb' 0 32 = v := by
  apply BitVec.eq_of_getLsbD_eq
  intro i hi
  simp only [BitVec.getLsbD_append, BitVec.getLsbD_extractLsb']
  by_cases h : i < 32
  · simp [h]
  · simp [h, show i - 32 < 32 by omega, show 32 + (i - 32) = i by omega]

/-- Read after write of a 64-bit value (R73). -/
@[simp] theorem dmemPair_setDmemPair (s : State) (j : Nat) (v : DWord) : (s.setDmemPair j v).dmemPair j = v := by
  simp [State.dmemPair, State.setDmemPair, dmemWord_setDmemWord, append_halves]

end Sys2Proof.Machine
end

