-- ==== Sys2Proof/Laws/Ops.lean ====
section
/-! SUPPORT. What each shared operation can do, said once: the checks, an attempt, a vector operation, the fault
action. Later proofs cite these and unfold none of them. -/

namespace Sys2Proof.Machine

/-! ## Checks -/

@[simp] theorem firstFault_nil : firstFault [] = none := rfl
@[simp] theorem firstFault_some (x : FaultRecord) (l : List (Option FaultRecord)) :
    firstFault (some x :: l) = some x := rfl
@[simp] theorem firstFault_none (l : List (Option FaultRecord)) : firstFault (none :: l) = firstFault l := rfl

/-- No check of a list fails exactly when the list raises nothing. -/
theorem firstFault_eq_none {l : List (Option FaultRecord)} : firstFault l = none ↔ ∀ c ∈ l, c = none := by
  induction l with
  | nil => simp
  | cons c l ih => cases c <;> simp [ih]

@[simp] theorem raiseIf_false (c : Cause) (i : Word) : raiseIf false c i = none := rfl
@[simp] theorem raiseIf_true (c : Cause) (i : Word) : raiseIf true c i = some ⟨c, i⟩ := rfl

theorem raiseIf_eq_none {b : Bool} {c : Cause} {i : Word} : raiseIf b c i = none ↔ b = false := by
  cases b <;> simp

/-- The range check passes exactly when the region lies in data memory (R76). -/
theorem rangeCheck_eq_none {s : State} {base count : Nat} :
    rangeCheck s base count = none ↔ base + count ≤ s.cfg.dmemWords := by
  rw [rangeCheck, raiseIf_eq_none]; simp

/-- What a failing range check records (R76). -/
theorem rangeCheck_of_lt {s : State} {base count : Nat} (h : s.cfg.dmemWords < base + count) :
    rangeCheck s base count = some ⟨.dmemRange, BitVec.ofNat 32 (max base s.cfg.dmemWords)⟩ := by
  simp [rangeCheck, h]

/-! ## Attempts -/

/-- All an attempt can do: take the first fault of its checks, or have its whole effect. -/
theorem attempt_cases (checks : List (Option FaultRecord)) (effect : State → State) (s : State) :
    (∃ record, firstFault checks = some record ∧ attempt checks effect s = .next (takeFault record s)) ∨
    (firstFault checks = none ∧ attempt checks effect s = .next (effect s)) := by
  unfold attempt
  cases h : firstFault checks with
  | none => exact .inr ⟨rfl, rfl⟩
  | some record => exact .inl ⟨record, rfl, rfl⟩

theorem attempt_of_none {checks : List (Option FaultRecord)} {effect : State → State} {s : State}
    (h : firstFault checks = none) : attempt checks effect s = .next (effect s) := by
  simp [attempt, h]

theorem attempt_of_some {checks : List (Option FaultRecord)} {effect : State → State} {s : State}
    {record : FaultRecord} (h : firstFault checks = some record) :
    attempt checks effect s = .next (takeFault record s) := by
  simp [attempt, h]

/-- All a vector operation can do: nothing but move on when the count is 0, else an attempt (R80). -/
theorem vectorOp_cases (count : Nat) (checks : List (Option FaultRecord)) (effect : State → State) (s : State) :
    (count = 0 ∧ vectorOp count checks effect s = .next s.advance) ∨
    (∃ record, firstFault checks = some record ∧
      vectorOp count checks effect s = .next (takeFault record s)) ∨
    (count ≠ 0 ∧ firstFault checks = none ∧ vectorOp count checks effect s = .next (effect s)) := by
  unfold vectorOp
  by_cases h : count = 0
  · exact .inl ⟨h, by simp [h]⟩
  · rw [if_neg h]
    rcases attempt_cases checks effect s with ⟨record, hr, he⟩ | ⟨hn, he⟩
    · exact .inr (.inl ⟨record, hr, he⟩)
    · exact .inr (.inr ⟨h, hn, he⟩)

/-! ## The fault action (R303) -/

/-- `takeFault` is the fault action of R303 and nothing else. -/
theorem takeFault_faultTaken (record : FaultRecord) (s : State) :
    FaultTaken record.cause record.info s (takeFault record s) :=
  ⟨rfl, rfl, rfl, rfl, rfl, rfl, rfl,
    ⟨fun _ => rfl, fun _ => rfl, fun _ => rfl, fun _ => rfl, fun _ => rfl⟩, rfl, rfl, rfl, rfl, rfl, rfl, rfl⟩

/-- Every cause has a code from 1 to 10 (R300). -/
theorem causeCode_range (c : Cause) : 1 ≤ (causeCode c).toNat ∧ (causeCode c).toNat ≤ 10 := by
  cases c <;> decide

/-! ## Loops over memory -/

/-- Every word after a ramp: the elements, then the last one (R201, R205). -/
theorem memWord_rampMemory (g : Nat → Word) (last : Word) (t n : Nat) (m : Memory) (k : Nat) :
    memWord (rampMemory g last t n m) k =
      if k = t + (n - 1) then last else if t ≤ k ∧ k < t + (n - 1) then g (k - t) else memWord m k := by
  rw [rampMemory, memWord_setWord, memWord_fillWords]

/-- A byte outside the ramp reads as before. -/
theorem memByte_rampMemory_other (g : Nat → Word) (last : Word) (t n : Nat) (m : Memory) (b : Nat) (hn : 0 < n)
    (h : b < 4 * t ∨ 4 * (t + n) ≤ b) : memByte (rampMemory g last t n m) b = memByte m b := by
  rw [rampMemory, memByte_setWord_other _ _ _ _ (by omega), memByte_fillWords_other _ _ _ _ _ (by omega)]

theorem wf_rampMemory {m : Memory} (g : Nat → Word) (last : Word) (t n : Nat) (h : Memory.wf m = true) :
    Memory.wf (rampMemory g last t n m) = true := wf_setWord _ _ (wf_fillWords _ _ _ h)

theorem within_rampMemory {m : Memory} {words : Nat} (g : Nat → Word) (last : Word) (t n : Nat) (_ : 0 < n)
    (h : Memory.within m words = true) (hb : t + n ≤ words) :
    Memory.within (rampMemory g last t n m) words = true :=
  within_setWord _ _ (within_fillWords _ _ _ h (by omega)) (by omega)

/-- A byte outside the target of a filter loop reads as before (R81, R221). -/
theorem memByte_filterLoop_other {H : Type} (kernel : Word → H → Word × H) (gain : Option Word) (xs ys n : Nat)
    (run : Memory × H) (b : Nat) (h : b < 4 * ys ∨ 4 * (ys + n) ≤ b) :
    memByte (filterLoop kernel gain xs ys n run).1 b = memByte run.1 b := by
  induction n with
  | zero => rfl
  | succ n ih =>
    simp only [filterLoop]
    rw [memByte_setWord_other _ _ _ _ (by omega), ih (by omega)]

theorem wf_filterLoop {H : Type} (kernel : Word → H → Word × H) (gain : Option Word) (xs ys n : Nat)
    {run : Memory × H} (h : Memory.wf run.1 = true) :
    Memory.wf (filterLoop kernel gain xs ys n run).1 = true := by
  induction n with
  | zero => exact h
  | succ n ih => exact wf_setWord _ _ ih

theorem within_filterLoop {H : Type} (kernel : Word → H → Word × H) (gain : Option Word) (xs ys n : Nat)
    {run : Memory × H} {words : Nat} (h : Memory.within run.1 words = true) (hb : ys + n ≤ words) :
    Memory.within (filterLoop kernel gain xs ys n run).1 words = true := by
  induction n with
  | zero => exact h
  | succ n ih => exact within_setWord _ _ (ih (by omega)) (by omega)

end Sys2Proof.Machine
end

