-- ==== Sys2Proof/Laws/PerInstr.lean ====
section
/-! SUPPORT. Statements about every instruction as syntax, one lemma per constructor: the word of an instruction
lies in the instruction's own row of spec/30_encoding.md R106. -/

namespace Sys2Proof.Laws.EncodeInRow

/-- The word of `i` matches the row of `i`: its bits under the row's mask are the row's pattern (R106). -/
def Statement (i : Instr) : Prop := encode i &&& (opcodeRow i).mask = (opcodeRow i).pattern

theorem nop : Statement .nop := rfl

theorem halt : Statement .halt := rfl

theorem li (a : RReg) (imm : Int) : Statement (.li a imm) := by
  rw [Statement, show (opcodeRow (.li a imm)).mask = formatU 0x3f#6 0x0#4 0x0#22 from rfl,
    show (opcodeRow (.li a imm)).pattern = formatU 0x2#6 0x0#4 0x0#22 from rfl]
  simp [encode, formatU_and]

theorem lui (a : RReg) (imm : Nat) : Statement (.lui a imm) := by
  rw [Statement, show (opcodeRow (.lui a imm)).mask = formatU 0x3f#6 0x0#4 0x0#22 from rfl,
    show (opcodeRow (.lui a imm)).pattern = formatU 0x3#6 0x0#4 0x0#22 from rfl]
  simp [encode, formatU_and]

theorem addi (a b : RReg) (imm : Int) : Statement (.addi a b imm) := by
  rw [Statement, show (opcodeRow (.addi a b imm)).mask = formatI 0x3f#6 0x0#4 0x0#4 0x0#18 from rfl,
    show (opcodeRow (.addi a b imm)).pattern = formatI 0x4#6 0x0#4 0x0#4 0x0#18 from rfl]
  simp [encode, formatI_and]

theorem ori (a b : RReg) (imm : Nat) : Statement (.ori a b imm) := by
  rw [Statement, show (opcodeRow (.ori a b imm)).mask = formatI 0x3f#6 0x0#4 0x0#4 0x0#18 from rfl,
    show (opcodeRow (.ori a b imm)).pattern = formatI 0x5#6 0x0#4 0x0#4 0x0#18 from rfl]
  simp [encode, formatI_and]

theorem add (a b c : RReg) : Statement (.add a b c) := by
  rw [Statement, show (opcodeRow (.add a b c)).mask = formatR 0x3f#6 0x0#4 0x0#4 0x0#4 0xf#4 0x3ff#10 from rfl,
    show (opcodeRow (.add a b c)).pattern = formatR 0x6#6 0x0#4 0x0#4 0x0#4 0x0#4 0x0#10 from rfl]
  simp [encode, formatR_and]

theorem sub (a b c : RReg) : Statement (.sub a b c) := by
  rw [Statement, show (opcodeRow (.sub a b c)).mask = formatR 0x3f#6 0x0#4 0x0#4 0x0#4 0xf#4 0x3ff#10 from rfl,
    show (opcodeRow (.sub a b c)).pattern = formatR 0x6#6 0x0#4 0x0#4 0x0#4 0x0#4 0x1#10 from rfl]
  simp [encode, formatR_and]

theorem and (a b c : RReg) : Statement (.and a b c) := by
  rw [Statement, show (opcodeRow (.and a b c)).mask = formatR 0x3f#6 0x0#4 0x0#4 0x0#4 0xf#4 0x3ff#10 from rfl,
    show (opcodeRow (.and a b c)).pattern = formatR 0x6#6 0x0#4 0x0#4 0x0#4 0x0#4 0x2#10 from rfl]
  simp [encode, formatR_and]

theorem or (a b c : RReg) : Statement (.or a b c) := by
  rw [Statement, show (opcodeRow (.or a b c)).mask = formatR 0x3f#6 0x0#4 0x0#4 0x0#4 0xf#4 0x3ff#10 from rfl,
    show (opcodeRow (.or a b c)).pattern = formatR 0x6#6 0x0#4 0x0#4 0x0#4 0x0#4 0x3#10 from rfl]
  simp [encode, formatR_and]

theorem xor (a b c : RReg) : Statement (.xor a b c) := by
  rw [Statement, show (opcodeRow (.xor a b c)).mask = formatR 0x3f#6 0x0#4 0x0#4 0x0#4 0xf#4 0x3ff#10 from rfl,
    show (opcodeRow (.xor a b c)).pattern = formatR 0x6#6 0x0#4 0x0#4 0x0#4 0x0#4 0x4#10 from rfl]
  simp [encode, formatR_and]

theorem slt (a b c : RReg) : Statement (.slt a b c) := by
  rw [Statement, show (opcodeRow (.slt a b c)).mask = formatR 0x3f#6 0x0#4 0x0#4 0x0#4 0xf#4 0x3ff#10 from rfl,
    show (opcodeRow (.slt a b c)).pattern = formatR 0x6#6 0x0#4 0x0#4 0x0#4 0x0#4 0x5#10 from rfl]
  simp [encode, formatR_and]

theorem sltu (a b c : RReg) : Statement (.sltu a b c) := by
  rw [Statement, show (opcodeRow (.sltu a b c)).mask = formatR 0x3f#6 0x0#4 0x0#4 0x0#4 0xf#4 0x3ff#10 from rfl,
    show (opcodeRow (.sltu a b c)).pattern = formatR 0x6#6 0x0#4 0x0#4 0x0#4 0x0#4 0x6#10 from rfl]
  simp [encode, formatR_and]

theorem j (offset : Int) : Statement (.j offset) := by
  rw [Statement, show (opcodeRow (.j offset)).mask = formatU 0x3f#6 0xf#4 0x0#22 from rfl,
    show (opcodeRow (.j offset)).pattern = formatU 0x8#6 0x0#4 0x0#22 from rfl]
  simp [encode, formatU_and]

theorem beqz (a : RReg) (offset : Int) : Statement (.beqz a offset) := by
  rw [Statement, show (opcodeRow (.beqz a offset)).mask = formatU 0x3f#6 0x0#4 0x0#22 from rfl,
    show (opcodeRow (.beqz a offset)).pattern = formatU 0x9#6 0x0#4 0x0#22 from rfl]
  simp [encode, formatU_and]

theorem bnez (a : RReg) (offset : Int) : Statement (.bnez a offset) := by
  rw [Statement, show (opcodeRow (.bnez a offset)).mask = formatU 0x3f#6 0x0#4 0x0#22 from rfl,
    show (opcodeRow (.bnez a offset)).pattern = formatU 0xa#6 0x0#4 0x0#22 from rfl]
  simp [encode, formatU_and]

theorem lw (a b : RReg) (imm : Int) : Statement (.lw a b imm) := by
  rw [Statement, show (opcodeRow (.lw a b imm)).mask = formatI 0x3f#6 0x0#4 0x0#4 0x0#18 from rfl,
    show (opcodeRow (.lw a b imm)).pattern = formatI 0xc#6 0x0#4 0x0#4 0x0#18 from rfl]
  simp [encode, formatI_and]

theorem sw (a b : RReg) (imm : Int) : Statement (.sw a b imm) := by
  rw [Statement, show (opcodeRow (.sw a b imm)).mask = formatI 0x3f#6 0x0#4 0x0#4 0x0#18 from rfl,
    show (opcodeRow (.sw a b imm)).pattern = formatI 0xd#6 0x0#4 0x0#4 0x0#18 from rfl]
  simp [encode, formatI_and]

theorem flw (a : FReg) (b : RReg) (imm : Int) : Statement (.flw a b imm) := by
  rw [Statement, show (opcodeRow (.flw a b imm)).mask = formatI 0x3f#6 0x0#4 0x0#4 0x0#18 from rfl,
    show (opcodeRow (.flw a b imm)).pattern = formatI 0xe#6 0x0#4 0x0#4 0x0#18 from rfl]
  simp [encode, formatI_and]

theorem fsw (a : FReg) (b : RReg) (imm : Int) : Statement (.fsw a b imm) := by
  rw [Statement, show (opcodeRow (.fsw a b imm)).mask = formatI 0x3f#6 0x0#4 0x0#4 0x0#18 from rfl,
    show (opcodeRow (.fsw a b imm)).pattern = formatI 0xf#6 0x0#4 0x0#4 0x0#18 from rfl]
  simp [encode, formatI_and]

theorem plw (a : PReg) (b : RReg) (imm : Int) : Statement (.plw a b imm) := by
  rw [Statement, show (opcodeRow (.plw a b imm)).mask = formatI 0x3f#6 0x8#4 0x0#4 0x0#18 from rfl,
    show (opcodeRow (.plw a b imm)).pattern = formatI 0x10#6 0x0#4 0x0#4 0x0#18 from rfl]
  simp [encode, formatI_and, phaseField_and_top]

theorem psw (a : PReg) (b : RReg) (imm : Int) : Statement (.psw a b imm) := by
  rw [Statement, show (opcodeRow (.psw a b imm)).mask = formatI 0x3f#6 0x8#4 0x0#4 0x0#18 from rfl,
    show (opcodeRow (.psw a b imm)).pattern = formatI 0x11#6 0x0#4 0x0#4 0x0#18 from rfl]
  simp [encode, formatI_and, phaseField_and_top]

theorem pldd (a : PReg) (b : RReg) (imm : Int) : Statement (.pldd a b imm) := by
  rw [Statement, show (opcodeRow (.pldd a b imm)).mask = formatI 0x3f#6 0x8#4 0x0#4 0x0#18 from rfl,
    show (opcodeRow (.pldd a b imm)).pattern = formatI 0x12#6 0x0#4 0x0#4 0x0#18 from rfl]
  simp [encode, formatI_and, phaseField_and_top]

theorem fadd (a b c : FReg) : Statement (.fadd a b c) := by
  rw [Statement, show (opcodeRow (.fadd a b c)).mask = formatR 0x3f#6 0x0#4 0x0#4 0x0#4 0xf#4 0x3ff#10 from rfl,
    show (opcodeRow (.fadd a b c)).pattern = formatR 0x14#6 0x0#4 0x0#4 0x0#4 0x0#4 0x0#10 from rfl]
  simp [encode, formatR_and]

theorem fsub (a b c : FReg) : Statement (.fsub a b c) := by
  rw [Statement, show (opcodeRow (.fsub a b c)).mask = formatR 0x3f#6 0x0#4 0x0#4 0x0#4 0xf#4 0x3ff#10 from rfl,
    show (opcodeRow (.fsub a b c)).pattern = formatR 0x14#6 0x0#4 0x0#4 0x0#4 0x0#4 0x1#10 from rfl]
  simp [encode, formatR_and]

theorem fmul (a b c : FReg) : Statement (.fmul a b c) := by
  rw [Statement, show (opcodeRow (.fmul a b c)).mask = formatR 0x3f#6 0x0#4 0x0#4 0x0#4 0xf#4 0x3ff#10 from rfl,
    show (opcodeRow (.fmul a b c)).pattern = formatR 0x14#6 0x0#4 0x0#4 0x0#4 0x0#4 0x2#10 from rfl]
  simp [encode, formatR_and]

theorem fmvrf (a : FReg) (b : RReg) : Statement (.fmvrf a b) := by
  rw [Statement, show (opcodeRow (.fmvrf a b)).mask = formatR 0x3f#6 0x0#4 0x0#4 0xf#4 0xf#4 0x3ff#10 from rfl,
    show (opcodeRow (.fmvrf a b)).pattern = formatR 0x14#6 0x0#4 0x0#4 0x0#4 0x0#4 0x8#10 from rfl]
  simp [encode, formatR_and]

theorem fmvfr (a : RReg) (b : FReg) : Statement (.fmvfr a b) := by
  rw [Statement, show (opcodeRow (.fmvfr a b)).mask = formatR 0x3f#6 0x0#4 0x0#4 0xf#4 0xf#4 0x3ff#10 from rfl,
    show (opcodeRow (.fmvfr a b)).pattern = formatR 0x14#6 0x0#4 0x0#4 0x0#4 0x0#4 0x9#10 from rfl]
  simp [encode, formatR_and]

theorem fcvtsw (a : FReg) (b : RReg) : Statement (.fcvtsw a b) := by
  rw [Statement, show (opcodeRow (.fcvtsw a b)).mask = formatR 0x3f#6 0x0#4 0x0#4 0xf#4 0xf#4 0x3ff#10 from rfl,
    show (opcodeRow (.fcvtsw a b)).pattern = formatR 0x14#6 0x0#4 0x0#4 0x0#4 0x0#4 0xa#10 from rfl]
  simp [encode, formatR_and]

theorem padd (a b c : PReg) : Statement (.padd a b c) := by
  rw [Statement, show (opcodeRow (.padd a b c)).mask = formatR 0x3f#6 0x8#4 0x8#4 0x8#4 0xf#4 0x3ff#10 from rfl,
    show (opcodeRow (.padd a b c)).pattern = formatR 0x18#6 0x0#4 0x0#4 0x0#4 0x0#4 0x0#10 from rfl]
  simp [encode, formatR_and, phaseField_and_top]

theorem pneg (a b : PReg) : Statement (.pneg a b) := by
  rw [Statement, show (opcodeRow (.pneg a b)).mask = formatR 0x3f#6 0x8#4 0x8#4 0xf#4 0xf#4 0x3ff#10 from rfl,
    show (opcodeRow (.pneg a b)).pattern = formatR 0x18#6 0x0#4 0x0#4 0x0#4 0x0#4 0x1#10 from rfl]
  simp [encode, formatR_and, phaseField_and_top]

theorem psubi (a b : PReg) (c : RReg) : Statement (.psubi a b c) := by
  rw [Statement, show (opcodeRow (.psubi a b c)).mask = formatR 0x3f#6 0x8#4 0x8#4 0x0#4 0xf#4 0x3ff#10 from rfl,
    show (opcodeRow (.psubi a b c)).pattern = formatR 0x18#6 0x0#4 0x0#4 0x0#4 0x0#4 0x2#10 from rfl]
  simp [encode, formatR_and, phaseField_and_top]

theorem pmask (a b : PReg) (c : RReg) : Statement (.pmask a b c) := by
  rw [Statement, show (opcodeRow (.pmask a b c)).mask = formatR 0x3f#6 0x8#4 0x8#4 0x0#4 0xf#4 0x3ff#10 from rfl,
    show (opcodeRow (.pmask a b c)).pattern = formatR 0x18#6 0x0#4 0x0#4 0x0#4 0x0#4 0x3#10 from rfl]
  simp [encode, formatR_and, phaseField_and_top]

theorem pwrap (a b : PReg) (c d : RReg) : Statement (.pwrap a b c d) := by
  rw [Statement, show (opcodeRow (.pwrap a b c d)).mask = formatR 0x3f#6 0x8#4 0x8#4 0x0#4 0x0#4 0x3ff#10 from rfl,
    show (opcodeRow (.pwrap a b c d)).pattern = formatR 0x18#6 0x0#4 0x0#4 0x0#4 0x0#4 0x4#10 from rfl]
  simp [encode, formatR_and, phaseField_and_top]

theorem prefl (a b : PReg) (c : RReg) : Statement (.prefl a b c) := by
  rw [Statement, show (opcodeRow (.prefl a b c)).mask = formatR 0x3f#6 0x8#4 0x8#4 0x0#4 0xf#4 0x3ff#10 from rfl,
    show (opcodeRow (.prefl a b c)).pattern = formatR 0x18#6 0x0#4 0x0#4 0x0#4 0x0#4 0x5#10 from rfl]
  simp [encode, formatR_and, phaseField_and_top]

theorem pint (a : RReg) (b : PReg) : Statement (.pint a b) := by
  rw [Statement, show (opcodeRow (.pint a b)).mask = formatR 0x3f#6 0x0#4 0x8#4 0xf#4 0xf#4 0x3ff#10 from rfl,
    show (opcodeRow (.pint a b)).pattern = formatR 0x18#6 0x0#4 0x0#4 0x0#4 0x0#4 0x6#10 from rfl]
  simp [encode, formatR_and, phaseField_and_top]

theorem pfrac (a : FReg) (b : PReg) : Statement (.pfrac a b) := by
  rw [Statement, show (opcodeRow (.pfrac a b)).mask = formatR 0x3f#6 0x0#4 0x8#4 0xf#4 0xf#4 0x3ff#10 from rfl,
    show (opcodeRow (.pfrac a b)).pattern = formatR 0x18#6 0x0#4 0x0#4 0x0#4 0x0#4 0x7#10 from rfl]
  simp [encode, formatR_and, phaseField_and_top]

theorem pge (a : RReg) (b : PReg) (c : RReg) : Statement (.pge a b c) := by
  rw [Statement, show (opcodeRow (.pge a b c)).mask = formatR 0x3f#6 0x0#4 0x8#4 0x0#4 0xf#4 0x3ff#10 from rfl,
    show (opcodeRow (.pge a b c)).pattern = formatR 0x18#6 0x0#4 0x0#4 0x0#4 0x0#4 0x8#10 from rfl]
  simp [encode, formatR_and, phaseField_and_top]

theorem pmov (a b : PReg) : Statement (.pmov a b) := by
  rw [Statement, show (opcodeRow (.pmov a b)).mask = formatR 0x3f#6 0x8#4 0x8#4 0xf#4 0xf#4 0x3ff#10 from rfl,
    show (opcodeRow (.pmov a b)).pattern = formatR 0x18#6 0x0#4 0x0#4 0x0#4 0x0#4 0x9#10 from rfl]
  simp [encode, formatR_and, phaseField_and_top]

theorem pfromf (a : PReg) (b : FReg) : Statement (.pfromf a b) := by
  rw [Statement, show (opcodeRow (.pfromf a b)).mask = formatR 0x3f#6 0x8#4 0x0#4 0xf#4 0xf#4 0x3ff#10 from rfl,
    show (opcodeRow (.pfromf a b)).pattern = formatR 0x18#6 0x0#4 0x0#4 0x0#4 0x0#4 0xa#10 from rfl]
  simp [encode, formatR_and, phaseField_and_top]

theorem wlk (a : FReg) (b : PReg) (c : RReg) (d : FReg) : Statement (.wlk a b c d) := by
  rw [Statement, show (opcodeRow (.wlk a b c d)).mask = formatR 0x3f#6 0x0#4 0x8#4 0x0#4 0x0#4 0x3ff#10 from rfl,
    show (opcodeRow (.wlk a b c d)).pattern = formatR 0x1c#6 0x0#4 0x0#4 0x0#4 0x0#4 0x0#10 from rfl]
  simp [encode, formatR_and, phaseField_and_top]

theorem vrampa (a : RReg) (b c : FReg) (d : RReg) : Statement (.vrampa a b c d) := by
  rw [Statement, show (opcodeRow (.vrampa a b c d)).mask = formatR 0x3f#6 0x0#4 0x0#4 0x0#4 0x0#4 0x3ff#10 from rfl,
    show (opcodeRow (.vrampa a b c d)).pattern = formatR 0x20#6 0x0#4 0x0#4 0x0#4 0x0#4 0x0#10 from rfl]
  simp [encode, formatR_and]

theorem vrampm (a : RReg) (b c : FReg) (d : RReg) : Statement (.vrampm a b c d) := by
  rw [Statement, show (opcodeRow (.vrampm a b c d)).mask = formatR 0x3f#6 0x0#4 0x0#4 0x0#4 0x0#4 0x3ff#10 from rfl,
    show (opcodeRow (.vrampm a b c d)).pattern = formatR 0x20#6 0x0#4 0x0#4 0x0#4 0x0#4 0x1#10 from rfl]
  simp [encode, formatR_and]

theorem iir2di (a b c d : RReg) : Statement (.iir2di a b c d) := by
  rw [Statement, show (opcodeRow (.iir2di a b c d)).mask = formatR 0x3f#6 0x0#4 0x0#4 0x0#4 0x0#4 0x3ff#10 from rfl,
    show (opcodeRow (.iir2di a b c d)).pattern = formatR 0x24#6 0x0#4 0x0#4 0x0#4 0x0#4 0x0#10 from rfl]
  simp [encode, formatR_and]

theorem iir2dii (a b c d : RReg) : Statement (.iir2dii a b c d) := by
  rw [Statement, show (opcodeRow (.iir2dii a b c d)).mask = formatR 0x3f#6 0x0#4 0x0#4 0x0#4 0x0#4 0x3ff#10 from rfl,
    show (opcodeRow (.iir2dii a b c d)).pattern = formatR 0x24#6 0x0#4 0x0#4 0x0#4 0x0#4 0x1#10 from rfl]
  simp [encode, formatR_and]

theorem iir1ap (a b c d : RReg) : Statement (.iir1ap a b c d) := by
  rw [Statement, show (opcodeRow (.iir1ap a b c d)).mask = formatR 0x3f#6 0x0#4 0x0#4 0x0#4 0x0#4 0x3ff#10 from rfl,
    show (opcodeRow (.iir1ap a b c d)).pattern = formatR 0x24#6 0x0#4 0x0#4 0x0#4 0x0#4 0x2#10 from rfl]
  simp [encode, formatR_and]

theorem iir2diMacc (a b c d : RReg) : Statement (.iir2diMacc a b c d) := by
  rw [Statement, show (opcodeRow (.iir2diMacc a b c d)).mask = formatR 0x3f#6 0x0#4 0x0#4 0x0#4 0x0#4 0x3ff#10 from rfl,
    show (opcodeRow (.iir2diMacc a b c d)).pattern = formatR 0x24#6 0x0#4 0x0#4 0x0#4 0x0#4 0x4#10 from rfl]
  simp [encode, formatR_and]

theorem iir2diiMacc (a b c d : RReg) : Statement (.iir2diiMacc a b c d) := by
  rw [Statement, show (opcodeRow (.iir2diiMacc a b c d)).mask = formatR 0x3f#6 0x0#4 0x0#4 0x0#4 0x0#4 0x3ff#10 from rfl,
    show (opcodeRow (.iir2diiMacc a b c d)).pattern = formatR 0x24#6 0x0#4 0x0#4 0x0#4 0x0#4 0x5#10 from rfl]
  simp [encode, formatR_and]

theorem iir1apMacc (a b c d : RReg) : Statement (.iir1apMacc a b c d) := by
  rw [Statement, show (opcodeRow (.iir1apMacc a b c d)).mask = formatR 0x3f#6 0x0#4 0x0#4 0x0#4 0x0#4 0x3ff#10 from rfl,
    show (opcodeRow (.iir1apMacc a b c d)).pattern = formatR 0x24#6 0x0#4 0x0#4 0x0#4 0x0#4 0x6#10 from rfl]
  simp [encode, formatR_and]

end Sys2Proof.Laws.EncodeInRow
end

