-- ==== Sys2Proof/Laws/Reset.lean ====
section
/-! SUPPORT. What the operations of reset can do, said once: the words of a region, the words left at free values,
and the machine's own fields after reset (R340). -/

namespace Sys2Proof.Machine

/-- The words from `base` are those of the region. -/
@[simp] theorem mem_wordsFrom {base count j : Nat} : j ∈ wordsFrom base count ↔ InRegion base count j := by
  simp only [wordsFrom, List.mem_map, List.mem_range]
  constructor
  · rintro ⟨i, h, rfl⟩; omega
  · intro h; exact ⟨j - base, by omega, by omega⟩

/-- Leaving words unspecified changes data memory and the count of free values alone. -/
theorem leaveUnspecified_frame (l : List Nat) (s : State) :
    leaveUnspecified l s =
      { s with dmem := (leaveUnspecified l s).dmem, freeIndex := (leaveUnspecified l s).freeIndex } := by
  induction l generalizing s with
  | nil => rfl
  | cons j rest ih => rw [leaveUnspecified, ih]; rfl

/-- A byte of no listed word reads as before. -/
theorem dmemByte_leaveUnspecified_other {l : List Nat} (s : State) {a : Nat} (h : a / 4 ∉ l) :
    (leaveUnspecified l s).dmemByte a = s.dmemByte a := by
  induction l generalizing s with
  | nil => rfl
  | cons j rest ih =>
    rw [List.mem_cons, not_or] at h
    rw [leaveUnspecified, ih _ h.2]
    exact dmemByte_setDmemWord_other s j _ a (by omega)

/-- A listed word holds a free word, and so does a word that held one. -/
theorem dmemWord_leaveUnspecified {l : List Nat} (s : State) {j : Nat}
    (h : j ∈ l ∨ ∃ k, s.dmemWord j = Config.abandonedWord k) :
    ∃ k, (leaveUnspecified l s).dmemWord j = Config.abandonedWord k := by
  induction l generalizing s with
  | nil => exact h.resolve_left (List.not_mem_nil)
  | cons i rest ih =>
    rw [leaveUnspecified]
    refine ih _ (Decidable.or_iff_not_imp_left.2 fun hr => ?_)
    have hw := dmemWord_setDmemWord s j i (Config.abandonedWord s.freeIndex)
    by_cases hji : j = i
    · exact ⟨_, hw.trans (if_pos hji)⟩
    · obtain ⟨k, hk⟩ := h.resolve_left (by simp [hji, hr])
      exact ⟨k, (hw.trans (if_neg hji)).trans hk⟩

@[simp] theorem resetMachine_dmem (s : State) : (resetMachine s).dmem = s.dmem := rfl
@[simp] theorem resetMachine_imem (s : State) : (resetMachine s).imem = s.imem := rfl
@[simp] theorem resetMachine_cfg (s : State) : (resetMachine s).cfg = s.cfg := rfl
@[simp] theorem resetMachine_turns (s : State) : (resetMachine s).turns = s.turns := rfl
@[simp] theorem resetMachine_pendingCtrl (s : State) : (resetMachine s).pendingCtrl = [] := rfl
@[simp] theorem resetMachine_dmemByte (s : State) (a : Nat) : (resetMachine s).dmemByte a = s.dmemByte a := rfl
@[simp] theorem resetMachine_dmemWord (s : State) (j : Nat) : (resetMachine s).dmemWord j = s.dmemWord j := rfl

end Sys2Proof.Machine
end

