-- ==== Sys2Proof/Laws/Sequencer.lean ====
section
/-! SUPPORT. What a turn of the sequencer and a write of `CTRL` can do, said once, with and without a pending STOP
(R38, R130; log 9). -/

namespace Sys2Proof.Machine

@[simp] theorem andThen_next (t : State) (f : State → Result) : andThen (.next t) f = f t := rfl
@[simp] theorem andThen_fault (reason : Fault) (f : State → Result) : andThen (.fault reason) f = .fault reason := rfl
@[simp] theorem andThen_refused (reason : Refusal) (f : State → Result) :
    andThen (.refused reason) f = .refused reason := rfl

/-- A sequence answers a next state exactly when both of its parts do. -/
theorem andThen_eq_next {first : Result} {f : State → Result} {u : State} :
    andThen first f = .next u ↔ ∃ t, first = .next t ∧ f t = .next u := by
  cases first <;> simp

/-! ## Writes of `CTRL` -/

/-- All a write of `CTRL` can do: wait with its STOP while the sequencer runs, or act at once. -/
theorem writeCtrl_cases (v : Word) (s : State) :
    (v.getLsbD 3 = true ∧ s.run = true ∧ writeCtrl v s = .next { s with pendingCtrl := s.pendingCtrl ++ [v] }) ∨
    ((v.getLsbD 3 = false ∨ s.run = false) ∧ writeCtrl v s = ctrlActions v s) := by
  unfold writeCtrl
  cases v.getLsbD 3 <;> cases s.run <;> simp

/-- STOP alone has no further action. -/
theorem ctrlActions_stop (s : State) : ctrlActions 8#32 s = .next s := rfl

/-- A write of `CTRL` to a stopped sequencer acts at once. -/
theorem writeCtrl_stopped {v : Word} {s : State} (h : s.run = false) : writeCtrl v s = ctrlActions v s :=
  (writeCtrl_cases v s).elim (fun c => by simp [h] at c) And.right

/-! ## Pending writes -/

@[simp] theorem finishStops_nil (s : State) : finishStops [] s = .next s := rfl
@[simp] theorem finishStops_cons (v : Word) (rest : List Word) (s : State) :
    finishStops (v :: rest) s = andThen (ctrlActions v (stopSequencer s)) (finishStops rest) := rfl

/-- With no STOP pending there is nothing to take. -/
theorem takePendingStops_of_nil {s : State} (h : s.pendingCtrl = []) : takePendingStops s = .next s := by
  cases s; cases h; rfl

/-! ## The sequencer's turn -/

/-- A stopped sequencer does nothing (R312; log 8). -/
theorem sequencerTurn_stopped {s : State} (h : s.run = false) : sequencerTurn s = .next s := by
  simp [sequencerTurn, h]

/-- A running sequencer with no STOP pending performs one cycle (R130). -/
theorem sequencerTurn_running {s : State} (h : s.run = true) (hp : s.pendingCtrl = []) :
    sequencerTurn s = instructionStep s := by
  have hs : { s with pendingCtrl := [] } = s := by cases s; cases hp; rfl
  rw [sequencerTurn, if_pos h, hs, hp]
  cases instructionStep s <;> rfl

/-- A running sequencer with writes of STOP pending performs one cycle, then they take effect (R38, R130). -/
theorem sequencerTurn_pending {s : State} (h : s.run = true) :
    sequencerTurn s = andThen (instructionStep { s with pendingCtrl := [] }) (finishStops s.pendingCtrl) :=
  if_pos h

end Sys2Proof.Machine
end

