-- ==== Sys2Proof/Tests/Slice0.lean ====
section
/-! SUPPORT. Tests of one step each on small states, with words and results from spec/30_encoding.md,
spec/95_test_vectors.md and the examples of the rules, and for every statement with hypotheses a named theorem
that shows values meeting them. -/

namespace Sys2Proof.Tests

open Sys2Proof Sys2Proof.Machine

/-! ## Helpers -/

/-- What `f` sees in the next state, if there is one. -/
def observe {α : Type} (o : Result) (f : State → α) : Option α :=
  match o with
  | .next t => some (f t)
  | _ => none

/-- What `f` sees after the instruction of a word. -/
def after {α : Type} (w : Word) (s : State) (f : State → α) : Option α :=
  match decode w with
  | .instr i => observe (exec i s) f
  | .illegal _ => none

/-- Data words from `base` up. -/
def putWords (base : Nat) : List Word → State → State
  | [], s => s
  | w :: rest, s => putWords (base + 1) rest (s.setDmemWord base w)

/-- `n` data words from `base` up. -/
def getWords (base : Nat) : Nat → State → List Word
  | 0, _ => []
  | n + 1, s => s.dmemWord base :: getWords (base + 1) n s

/-- The fault record with `RUN`, `FAULT`, `PC`. -/
def recordOf (s : State) : BitVec 8 × Word × Word × Bool × Bool × Word :=
  (s.cause, s.fpc, s.finfo, s.run, s.faulted, s.pc)

/-- A running machine after reset. -/
def running : State := { State.reset with run := true }

/-- A running machine with the word at `PC`. -/
def runningWord (w : Word) : State := running.setImemWord 0 w

/-! ## WellFormed refuses an ill-formed term of each kind (R103) -/

theorem test_wf_li : Instr.wellFormed (.li 1 2097152) = false ∧ Instr.wellFormed (.li 1 (-2097153)) = false ∧
    Instr.wellFormed (.li 1 2097151) = true ∧ Instr.wellFormed (.li 1 (-2097152)) = true := by decide
theorem test_wf_lui : Instr.wellFormed (.lui 1 4194304) = false ∧ Instr.wellFormed (.lui 1 4194303) = true := by decide
theorem test_wf_addi : Instr.wellFormed (.addi 1 1 131072) = false ∧ Instr.wellFormed (.addi 1 1 (-131073)) = false ∧
    Instr.wellFormed (.addi 1 1 (-131072)) = true := by decide
theorem test_wf_ori : Instr.wellFormed (.ori 1 1 262144) = false ∧ Instr.wellFormed (.ori 1 1 262143) = true := by decide
theorem test_wf_branches : Instr.wellFormed (.j 2097152) = false ∧ Instr.wellFormed (.beqz 1 (-2097153)) = false ∧
    Instr.wellFormed (.bnez 1 2097152) = false := by decide
theorem test_wf_memory : Instr.wellFormed (.lw 1 1 131072) = false ∧ Instr.wellFormed (.sw 1 1 131072) = false ∧
    Instr.wellFormed (.flw 1 1 131072) = false ∧ Instr.wellFormed (.fsw 1 1 131072) = false ∧
    Instr.wellFormed (.plw 1 1 131072) = false ∧ Instr.wellFormed (.psw 1 1 131072) = false ∧
    Instr.wellFormed (.pldd 1 1 (-131073)) = false := by decide

/-! ## Decoding: a word of every instruction, written out from R101 and R106 -/

theorem test_decode_control : decode 0x00000000 = .instr .nop ∧ decode 0x04000000 = .instr .halt ∧
    decode 0x203FFFFD = .instr (.j (-3)) ∧ decode 0x25400002 = .instr (.beqz 5 2) ∧
    decode 0x28FFFFFB = .instr (.bnez 3 (-5)) := by decide
theorem test_decode_immediates : decode 0x08400010 = .instr (.li 1 16) ∧ decode 0x087FFFFF = .instr (.li 1 (-1)) ∧
    decode 0x0C8FE000 = .instr (.lui 2 0x0FE000) ∧ decode 0x10CFFFFF = .instr (.addi 3 3 (-1)) ∧
    decode 0x14880155 = .instr (.ori 2 2 0x155) := by decide
theorem test_decode_alu : decode 0x18C48000 = .instr (.add 3 1 2) ∧ decode 0x18C48001 = .instr (.sub 3 1 2) ∧
    decode 0x18C48002 = .instr (.and 3 1 2) ∧ decode 0x18C48003 = .instr (.or 3 1 2) ∧
    decode 0x18C48004 = .instr (.xor 3 1 2) ∧ decode 0x19448005 = .instr (.slt 5 1 2) ∧
    decode 0x19448006 = .instr (.sltu 5 1 2) := by decide
theorem test_decode_memory : decode 0x31000021 = .instr (.lw 4 0 0x21) ∧ decode 0x34480003 = .instr (.sw 1 2 3) ∧
    decode 0x38400020 = .instr (.flw 1 0 0x20) ∧ decode 0x3C480000 = .instr (.fsw 1 2 0) ∧
    decode 0x40400030 = .instr (.plw 1 0 0x30) ∧ decode 0x44000040 = .instr (.psw 0 0 0x40) ∧
    decode 0x48400020 = .instr (.pldd 1 0 0x20) := by decide
theorem test_decode_float : decode 0x5048C000 = .instr (.fadd 1 2 3) ∧ decode 0x5048C001 = .instr (.fsub 1 2 3) ∧
    decode 0x5048C002 = .instr (.fmul 1 2 3) ∧ decode 0x50480008 = .instr (.fmvrf 1 2) ∧
    decode 0x50480009 = .instr (.fmvfr 1 2) ∧ decode 0x5048000A = .instr (.fcvtsw 1 2) := by decide
theorem test_decode_phase : decode 0x60004000 = .instr (.padd 0 0 1) ∧ decode 0x60040001 = .instr (.pneg 0 1) ∧
    decode 0x6004C002 = .instr (.psubi 0 1 3) ∧ decode 0x6004C003 = .instr (.pmask 0 1 3) ∧
    decode 0x6004D004 = .instr (.pwrap 0 1 3 4) ∧ decode 0x6004C005 = .instr (.prefl 0 1 3) ∧
    decode 0x60440006 = .instr (.pint 1 1) ∧ decode 0x60440007 = .instr (.pfrac 1 1) ∧
    decode 0x61418008 = .instr (.pge 5 0 6) ∧ decode 0x60840009 = .instr (.pmov 2 1) ∧
    decode 0x6048000A = .instr (.pfromf 1 2) := by decide
theorem test_decode_vector : decode 0x70404800 = .instr (.wlk 1 0 1 2) ∧ decode 0x80449000 = .instr (.vrampa 1 1 2 4) ∧
    decode 0x80449001 = .instr (.vrampm 1 1 2 4) ∧ decode 0x9048D000 = .instr (.iir2di 1 2 3 4) ∧
    decode 0x9048D001 = .instr (.iir2dii 1 2 3 4) ∧ decode 0x9048D002 = .instr (.iir1ap 1 2 3 4) ∧
    decode 0x9048D004 = .instr (.iir2diMacc 1 2 3 4) ∧ decode 0x9048D005 = .instr (.iir2diiMacc 1 2 3 4) ∧
    decode 0x9048D006 = .instr (.iir1apMacc 1 2 3 4) := by decide
/-- The four ways to be illegal (R107). -/
theorem test_decode_illegal : decode 0xFFFFFFFF = .illegal .reservedOpcode ∧
    decode 0x18000007 = .illegal .reservedFunction ∧ decode 0x90000003 = .illegal .reservedFunction ∧
    decode 0x90000008 = .illegal .reservedFunction ∧ decode 0x18000400 = .illegal .unusedField ∧
    decode 0x00000001 = .illegal .unusedField ∧ decode 0x20400000 = .illegal .unusedField ∧
    decode 0x42000000 = .illegal .phaseField ∧ decode 0x60020000 = .illegal .phaseField ∧
    decodeBytes [0, 0, 0] = .illegal .notOneWord := by decide
theorem test_decode_table_word : decodeTableWord 32 0x70404000 = some (.wlk 1 0 1 0) ∧
    decodeTableWord 32 0xFFFFFFFF = none := by decide

/-! ## Integer, control and memory instructions, one step each -/

theorem test_nop : after 0x00000000 { running with pc := 5 } (fun t => t.pc) = some 6 := by decide
/-- `HALT` at `pc` = 9: `PC` = 10, `STATUS` = 0b0100 (R134). -/
theorem test_halt : after 0x04000000 { running with pc := 9 } (fun t => (t.pc, statusWord t, t.irqstat)) =
    some (10, 0b0100, 1) := by decide
theorem test_li : after 0x087FFFFF running (fun t => (t.readR 1, t.pc)) = some (0xFFFFFFFF, 1) := by decide
theorem test_lui : after 0x0C8FE000 running (fun t => t.readR 2) = some 0x3F800000 := by decide
theorem test_addi : after 0x10CFFFFF (running.writeR 3 1) (fun t => t.readR 3) = some 0 := by decide
theorem test_ori : after 0x14880155 (running.writeR 2 0x3F800000) (fun t => t.readR 2) = some 0x3F800155 := by decide
theorem test_add : after 0x18C48000 ((running.writeR 1 0x7FFFFFFF).writeR 2 1) (fun t => t.readR 3) =
    some 0x80000000 := by decide
theorem test_sub : after 0x18C48001 (running.writeR 2 1) (fun t => t.readR 3) = some 0xFFFFFFFF := by decide
theorem test_and : after 0x18C48002 ((running.writeR 1 0x107).writeR 2 0xFF) (fun t => t.readR 3) = some 7 := by decide
theorem test_or : after 0x18C48003 ((running.writeR 1 0x100).writeR 2 3) (fun t => t.readR 3) = some 0x103 := by decide
theorem test_xor : after 0x18C48004 ((running.writeR 1 0xFF).writeR 2 0x0F) (fun t => t.readR 3) = some 0xF0 := by decide
theorem test_slt : after 0x19448005 (running.writeR 1 0xFFFFFFFF) (fun t => t.readR 5) = some 1 := by decide
theorem test_sltu : after 0x19448006 (running.writeR 1 0xFFFFFFFF) (fun t => t.readR 5) = some 0 := by decide
/-- `ADDI r0, r0, 1` writes nothing (R31). -/
theorem test_write_r0 : after 0x10000001 running (fun t => (t.readR 0, t.r)) = some (0, running.r) := by decide
theorem test_j : after 0x203FFFFD { running with pc := 10 } (fun t => t.pc) = some 7 := by decide
theorem test_beqz_taken : after 0x25400002 { running with pc := 10 } (fun t => t.pc) = some 12 := by decide
theorem test_beqz_not_taken : after 0x25400002 ({ running with pc := 10 }.writeR 5 1) (fun t => t.pc) = some 11 := by decide
theorem test_bnez_taken : after 0x28FFFFFB ({ running with pc := 8 }.writeR 3 2) (fun t => t.pc) = some 3 := by decide
theorem test_bnez_not_taken : after 0x28FFFFFB { running with pc := 8 } (fun t => t.pc) = some 9 := by decide
theorem test_lw : after 0x31000021 (running.setDmemWord 0x21 0x3F800000) (fun t => t.readR 4) = some 0x3F800000 := by decide
/-- `LW r0, -1(r0)`: the check happens though the value is discarded (R150). -/
theorem test_lw_range : after 0x3003FFFF running recordOf = some (3, 0, 0xFFFFFFFF, false, true, 0) := by decide
theorem test_sw : after 0x34480003 ((running.writeR 1 7).writeR 2 0x200) (fun t => getWords 0x202 3 t) =
    some [0, 7, 0] := by decide
theorem test_flw : after 0x38400020 (running.setDmemWord 0x20 0x7F800001) (fun t => t.readF 1) = some 0x7F800001 := by decide
theorem test_fsw : after 0x3C480000 ((running.writeF 1 0x3F000000).writeR 2 0x200) (fun t => getWords 0x200 1 t) =
    some [0x3F000000] := by decide
theorem test_plw : after 0x40400030 (putWords 0x30 [0x80000000, 1] running) (fun t => t.readP 1) =
    some 0x0000000180000000 := by decide
theorem test_psw : after 0x44000040 (running.writeP 0 0x0000000900000000) (fun t => getWords 0x40 2 t) =
    some [0, 9] := by decide
/-- `PSW p0, 0xFFF(r0)`: the second word is out of range, neither is written (R155). -/
theorem test_psw_range : after 0x44000FFF (running.writeP 0 0xFFFFFFFFFFFFFFFF) (fun t => (t.finfo, getWords 0xFFF 1 t)) =
    some (0x1000, [0]) := by decide

/-! ## Scalar float -/

theorem test_fadd : after 0x5048C000 ((running.writeF 2 0x3F800000).writeF 3 0x3F000000) (fun t => t.readF 1) =
    some 0x3FC00000 := by decide +kernel
theorem test_fsub : after 0x5048C001 ((running.writeF 2 0x3F800000).writeF 3 0x3E800000) (fun t => t.readF 1) =
    some 0x3F400000 := by decide +kernel
theorem test_fmul : after 0x5048C002 ((running.writeF 2 0xBF800000).writeF 3 0x3F000000) (fun t => t.readF 1) =
    some 0xBF000000 := by decide +kernel
theorem test_fmvrf : after 0x50480008 (running.writeR 2 0x3F000000) (fun t => t.readF 1) = some 0x3F000000 := by decide
theorem test_fmvfr : after 0x50480009 (running.writeF 2 0x80000000) (fun t => t.readR 1) = some 0x80000000 := by decide
/-- 16777217 is a tie that goes to the even significand (R276). -/
theorem test_fcvtsw : after 0x5048000A (running.writeR 2 0x01000001) (fun t => t.readF 1) = some 0x4B800000 := by
  decide +kernel
/-- `fdiv` (R16): 1 / 3, 1 / 0, 0 / 0 and a subnormal quotient. -/
theorem test_fdiv : fdiv 0x3F800000 0x40400000 = 0x3EAAAAAB ∧ fdiv 0xBF800000 0 = 0xFF800000 ∧
    fdiv 0 0x80000000 = 0x7FC00000 ∧ fdiv 0x00800000 0x40000000 = 0x00400000 := by decide +kernel

/-! ## Phases (vectors V-FX of 95_test_vectors.md) -/

theorem test_pldd : after 0x48400020 (putWords 0x20 [0, 0xBFD00000] running) (fun t => t.readP 1) =
    some 0xFFFFFFFFC0000000 := by decide +kernel
theorem test_pldd_range : after 0x48400020 (putWords 0x20 [0, 0x41E00000] running) recordOf =
    some (4, 0, 0x41E00000, false, true, 0) := by decide +kernel
theorem test_pfromf : after 0x6048000A (running.writeF 2 0xBFC00000) (fun t => t.readP 1) =
    some 0xFFFFFFFE80000000 := by decide +kernel
theorem test_pfromf_range : after 0x6048000A (running.writeF 2 0x4F000000) recordOf =
    some (4, 0, 0x4F000000, false, true, 0) := by decide +kernel
theorem test_padd : after 0x60004000 ((running.writeP 0 0x7FFFFFFF80000000).writeP 1 0x80000000)
    (fun t => t.readP 0) = some 0x8000000000000000 := by decide
theorem test_pneg : after 0x60040001 (running.writeP 1 0x0000000180000000) (fun t => t.readP 0) =
    some 0xFFFFFFFE80000000 := by decide
theorem test_psubi : after 0x6004C002 ((running.writeP 1 0x0000000540000000).writeR 3 0xFFFFFFFF)
    (fun t => t.readP 0) = some 0x0000000640000000 := by decide
theorem test_pmask : after 0x6004C003 ((running.writeP 1 0xFFFFFFFF80000000).writeR 3 0xFF) (fun t => t.readP 0) =
    some 0x000000FF80000000 := by decide
theorem test_pwrap : after 0x6004D004 (((running.writeP 1 0x0000000D40000000).writeR 3 2).writeR 4 6)
    (fun t => t.readP 0) = some 0x0000000540000000 := by decide
theorem test_pwrap_range : after 0x6004D004 ((running.writeR 3 6).writeR 4 6) recordOf =
    some (10, 0, 6, false, true, 0) := by decide
theorem test_prefl : after 0x6004C005 ((running.writeP 1 0x0000000680000000).writeR 3 6) (fun t => t.readP 0) =
    some 0x0000000580000000 := by decide
theorem test_pint : after 0x60440006 (running.writeP 1 0xFFFFFFFFC0000000) (fun t => t.readR 1) =
    some 0xFFFFFFFF := by decide
theorem test_pfrac : after 0x60440007 (running.writeP 1 0xFFFFFFFF) (fun t => t.readF 1) = some 0x3F7FFFFF := by
  decide +kernel
theorem test_pge : after 0x61418008 ((running.writeP 0 0x0000000600000000).writeR 6 6) (fun t => t.readR 5) =
    some 1 := by decide
theorem test_pge_signed : after 0x61418008 (running.writeP 0 0xFFFFFFFF80000000) (fun t => t.readR 5) = some 0 := by decide
theorem test_pmov : after 0x60840009 (running.writeP 1 0x0000000900000000) (fun t => t.readP 2) =
    some 0x0000000900000000 := by decide

/-! ## Ramps (vectors V-RA, V-RM) -/

/-- The operands of a ramp vector: target 0x300. -/
def rampState (first final n : Word) : State :=
  (((running.writeR 1 0x300).writeF 1 first).writeF 2 final).writeR 4 n

theorem test_vrampa : after 0x80449000 (rampState 0xC00C6775 0x40056A20 3) (fun t => getWords 0x300 4 t) =
    some [0xBF448664, 0x3F28910C, 0x40056A20, 0] := by decide +kernel
theorem test_vrampa_range : after 0x80449000 ((rampState 0 0 5).writeR 1 0xFFE) recordOf =
    some (3, 0, 0x1000, false, true, 0) := by decide
theorem test_vrampm : after 0x80449001 (rampState 0x3F800000 0x41200000 3) (fun t => getWords 0x300 4 t) =
    some [0x4009E242, 0x409487E5, 0x41200000, 0] := by decide +kernel
theorem test_vrampm_sign : after 0x80449001 (rampState 0x80000000 0x40800000 2) recordOf =
    some (5, 0, 0, false, true, 0) := by decide

/-! ## IIR filters (vectors V-IIR) -/

/-- The operands of an IIR vector: descriptor at 0x40, source at 0x100, target at 0x200. -/
def iirState (n : Word) (descriptor source target : List Word) : State :=
  putWords 0x40 descriptor (putWords 0x100 source (putWords 0x200 target
    ((((running.writeR 1 0x40).writeR 2 0x100).writeR 3 0x200).writeR 4 n)))

/-- V-IIR-3: outputs and end history. -/
theorem test_iir2di : after 0x9048D000
    (iirState 2 [0x3F000000, 0x3F000000, 0, 0, 0, 0x40000000] [0x40800000, 0x40C00000] [])
    (fun t => (getWords 0x200 2 t, getWords 0x45 4 t)) =
    some ([0x40400000, 0x40A00000], [0x40C00000, 0x40800000, 0x40A00000, 0x40400000]) := by decide +kernel
/-- V-IIR-4. -/
theorem test_iir2dii : after 0x9048D001
    (iirState 2 [0x3F800000, 0, 0, 0xBF800000, 0, 0x40400000] [0x3F800000, 0x3F800000] [])
    (fun t => (getWords 0x200 2 t, getWords 0x45 2 t)) =
    some ([0x40800000, 0x40A00000], [0x40A00000, 0x40800000]) := by decide +kernel
/-- V-IIR-6. -/
theorem test_iir1ap : after 0x9048D002 (iirState 3 [0x3DCCCCCD, 0xBF666666] [0x3F800000, 0x3F800000, 0x3F800000] [])
    (fun t => (getWords 0x200 3 t, getWords 0x42 1 t)) =
    some ([0x3DCCCCCD, 0x3E428F5C, 0x3E8AC083], [0x3E8AC083]) := by decide +kernel
/-- V-IIR-8. -/
theorem test_iir2di_macc : after 0x9048D004
    (iirState 2 [0x3F800000, 0x3F000000, 0, 0, 0, 0, 0, 0, 0, 0x40000000] [0x40000000, 0x40800000]
      [0x3F800000, 0x3F800000])
    (fun t => (getWords 0x200 2 t, getWords 0x45 4 t)) =
    some ([0x40A00000, 0x41300000], [0x40800000, 0x40000000, 0x40A00000, 0x40000000]) := by decide +kernel
/-- V-IIR-9. -/
theorem test_iir2dii_macc : after 0x9048D005
    (iirState 2 [0x3F800000, 0, 0, 0xBF800000, 0, 0, 0, 0, 0, 0x3F800000] [0x3F800000, 0x3F800000]
      [0x40400000, 0x40400000])
    (fun t => (getWords 0x200 2 t, getWords 0x45 2 t)) =
    some ([0x40800000, 0x40A00000], [0x40000000, 0x3F800000]) := by decide +kernel
/-- V-IIR-10. -/
theorem test_iir1ap_macc : after 0x9048D006
    (iirState 2 [0x3F000000, 0xBF000000, 0, 0x40000000] [0x3F800000, 0x3F800000] [0x3F800000, 0x3F800000])
    (fun t => (getWords 0x200 2 t, getWords 0x42 1 t)) =
    some ([0x40000000, 0x40200000], [0x3F400000]) := by decide +kernel
/-- V-IIR-13a: the descriptor region is checked first. -/
theorem test_iir_descriptor_range : after 0x9048D000 ((iirState 1 [] [] []).writeR 1 0xFFA) recordOf =
    some (3, 0, 0x1000, false, true, 0) := by decide

/-! ## Wavetable lookup (vectors V-WLK) -/

/-- Table t0 of 95_test_vectors.md at 0x100, descriptor at 0x10. -/
def waveState (ntab mode : Word) (phase : DWord) : State :=
  putWords 0x10 [0x100, 4, ntab, mode] (putWords 0x100 [0, 0x3F800000, 0, 0xBF800000, 0x3F800000, 0x3F000000,
    0xBF000000, 0xBF800000] ((running.writeR 1 0x10).writeP 0 phase))

/-- V-WLK-3: a negative phase in a periodic table. -/
theorem test_wlk : after 0x70404800 (waveState 1 3 0xFFFFFFFFC0000000) (fun t => t.readF 1) = some 0xBE800000 := by
  decide +kernel
/-- V-WLK-10: past the end of a one-shot sample. -/
theorem test_wlk_sample_range : after 0x70404800 (waveState 1 2 0x0000000400000000) recordOf =
    some (9, 0, 4, false, true, 0) := by decide

/-! ## The host, faults and reset -/

/-- A fetch beyond command memory (R301), and an illegal word (R107). -/
theorem test_fetch_fault : observe (step { running with pc := 1024 }) recordOf =
    some (2, 1024, 1024, false, true, 1024) := by decide
theorem test_illegal_fault : observe (step (runningWord 0xFFFFFFFF)) recordOf =
    some (1, 0, 0xFFFFFFFF, false, true, 0) := by decide
/-- The host loads `LI r1, 16`, starts the sequencer, and one step later it has run (R342). -/
theorem test_boot : observe (Host.Core.run Sys2Proof.core 3
      { State.reset with turns := [.hostWrite 4 0x10000 0x08400010, .hostWrite 4 4 1] })
    (fun t => ((t : State).readR 1, t.pc, t.run)) = some (16, 1, true) := by decide
/-- STOP arrives in front of `LI r1, 16`: `RUN` reads 1 until that instruction is finished (R38, R345), and the next
one is not performed. -/
theorem test_stop_waits :
    let s : State := { runningWord 0x08400010 with turns := [.hostWrite 4 4 8, .hostRead 4 8, .sequencer, .sequencer] }
    observe (Host.Core.run Sys2Proof.core 2 s) (fun t => ((t : State).hostData, t.run, t.readR 1)) = some (1, true, 0) ∧
    observe (Host.Core.run Sys2Proof.core 4 s) (fun t => ((t : State).pc, t.run, t.readR 1)) = some (1, false, 16) := by
  decide
/-- An access without the wait is refused (R45, R345). -/
theorem test_stop_without_wait :
    Host.Core.run Sys2Proof.core 2 { running with turns := [.hostWrite 4 4 8, .hostRead 4 0x0C] } =
      .refused .hostAccessWhileRunning := rfl
theorem test_with_fetch_word : observe (step (State.reset.withFetchWord 32 0x08400010)) (fun t => (t.readR 1, t.pc)) =
    some (16, 1) := by decide

/-! ## Every hypothesis of the statements can be met

One theorem per statement with hypotheses, one conjunct per clause, at boundary values of its range. -/

theorem witness_DecodeOfEncode : Instr.wellFormed (.addi 15 15 (-131072)) = true ∧
    Instr.wellFormed (.bnez 0 2097151) = true ∧ Instr.wellFormed (.lui 1 4194303) = true := by decide
theorem witness_EncodeOfDecode : decode 0x28FFFFFB = .instr (.bnez 3 (-5)) := by decide
theorem witness_DecodeAgreesWithOpcodeTable :
    opcodeRow (.psw 7 0 0) ∈ opcodeTable ∧
    0x45C00000#32 &&& (opcodeRow (.psw 7 0 0)).mask = (opcodeRow (.psw 7 0 0)).pattern := by decide
theorem witness_UnmatchedWordIsIllegal :
    (runningWord 0x46000000).pc.toNat < (runningWord 0x46000000).cfg.imemWords ∧
    ∀ row ∈ opcodeTable, (runningWord 0x46000000).imemWord (runningWord 0x46000000).pc.toNat &&& row.mask ≠
      row.pattern := by decide
theorem witness_StepRunsDecodedInstruction :
    running.cfg.legal = true ∧ running.turns = [] ∧ running.run = true ∧ running.pendingCtrl = [] ∧
    decode (({ running with pc := 1023 } : State).imemWord 1023) = .instr .nop ∧
    decode ((runningWord 0xFFFFFFFF).imemWord 0) = .illegal .reservedOpcode ∧
    running.cfg.imemWords ≤ ({ running with pc := 1024 } : State).pc.toNat ∧
    State.reset.turns = [] ∧ State.reset.run = false ∧ State.reset.faulted = false ∧
    ({ State.reset with turns := [.hostWrite 4 4 2] } : State).turns = [.hostWrite 4 4 2#32] := by decide
theorem witness_StepTakesFirstTurn :
    running.cfg.legal = true ∧ ({ running with turns := [.sequencer] } : State).turns = [.sequencer] ∧
    running.pendingCtrl = [] ∧ ({ State.reset with turns := [.sequencer] } : State).run = false ∧
    ({ running with turns := [.hostRead 4 0, .stopTakesEffect, .reset, .resetDuringInstruction] } : State).turns =
      [.hostRead 4 0, .stopTakesEffect, .reset, .resetDuringInstruction] ∧
    ({ running with turns := [.hostWrite 4 4 8] } : State).turns = [.hostWrite 4 4 8] := by decide
theorem witness_FaultsArePrecise : running.faulted = false ∧
    observe (exec (.lw 1 0 4096) running) (fun t => t.faulted) = some true ∧
    observe (instructionStep (runningWord 0xFFFFFFFF)) (fun t => t.faulted) = some true := by decide
theorem witness_InstructionsReachNothingOutside : exec .nop running = .next running.advance := rfl
theorem witness_OnlyHaltAndFaultsTouchStatus : running.faulted = false ∧
    observe (exec (.sw 1 0 4095) running) (fun t => t.faulted) = some false ∧ (Instr.sw 1 0 4095) ≠ .halt := by decide
theorem witness_InvKeptByStep : Inv running ∧ step running = .next running.advance :=
  ⟨⟨by decide, by unfold MemoryOk; decide, by unfold StatusOk; decide, ⟨fun _ => rfl, fun _ hv => nomatch hv⟩,
    by unfold RecordOk; decide⟩, rfl⟩
theorem witness_InvAtReset : Params.legal ⟨1, 16, 0x00800000, .implementation⟩ = true ∧
    Params.legal ⟨16384, 2 ^ 24, 0x3F800000, .nearest⟩ = true ∧ Memory.wf [(3, 1#8)] = true ∧
    Memory.within [(3, 1#8)] 1 = true := by decide
theorem witness_ResetFromAnyState :
    ({ running with turns := [.reset] } : State).turns = [.reset] ∧
    abandonedWords { runningWord 0x34400FFF with turns := [.resetDuringInstruction] } = [4095] := by decide
/-- `SW r1, 0xFFF(r0)` writes word 4095 and no other, and its checks pass; at 0x1000 it writes none. -/
theorem witness_ResetFromAnyState_store :
    decode ((runningWord 0x34400FFF).imemWord (runningWord 0x34400FFF).pc.toNat) = .instr (.sw 1 0 4095) ∧
    (runningWord 0x34400FFF).pc.toNat < running.cfg.imemWords ∧
    storesHere (.sw 1 0 4095) (runningWord 0x34400FFF) = true ∧ 4095 ∈ targetWords (.sw 1 0 4095) running ∧
    WritesWord (.sw 1 0 4095) running 4095 ∧ ¬ WritesWord (.sw 1 0 4095) running (16379 / 4) ∧
    storesHere (.sw 1 0 4096) running = false ∧ ¬ WritesWord (.sw 1 0 4096) running 4096 ∧
    decode ((runningWord 0xFFFFFFFF).imemWord 0) = .illegal .reservedOpcode ∧
    running.cfg.imemWords ≤ ({ running with pc := 1024 } : State).pc.toNat := by
  unfold WritesWord; decide
/-- A filter in the middle of which reset falls: its target and the history words of its descriptor, one past each
end of both left out; none with count 0. -/
theorem witness_ResetFromAnyState_filter :
    storesHere (.iir2di 1 2 3 4) (iirState 2 [] [] []) = true ∧
    targetWords (.iir2di 1 2 3 4) (iirState 2 [] [] []) = [0x200, 0x201, 0x45, 0x46, 0x47, 0x48] ∧
    storesHere (.iir2di 1 2 3 4) (iirState 0 [] [] []) = false := by decide
theorem witness_ResetFromAnyState_filter_words :
    WritesWord (.iir2di 1 2 3 4) (iirState 2 [] [] []) 0x201 ∧ ¬ WritesWord (.iir2di 1 2 3 4) (iirState 2 [] [] []) 0x202 ∧
    WritesWord (.iir2di 1 2 3 4) (iirState 2 [] [] []) 0x48 ∧ ¬ WritesWord (.iir2di 1 2 3 4) (iirState 2 [] [] []) 0x49 ∧
    ¬ WritesWord (.iir2di 1 2 3 4) (iirState 0 [] [] []) 0x45 := by
  simp only [WritesWord, FilterWrites, InRegion]; decide
theorem witness_HardwiredZero : State.reset.run = false ∧ exec .nop running = .next running.advance :=
  ⟨by decide, rfl⟩
theorem witness_NopRunsToFetchFault : running.cfg.legal = true ∧ running.turns = [] ∧ running.run = true ∧
    running.pendingCtrl = [] ∧ running.pc.toNat ≤ running.cfg.imemWords ∧ ({ running with pc := 1024 } : State).pc.toNat ≤ 1024 ∧
    ∀ j, j < running.cfg.imemWords → running.imemWord j = 0#32 :=
  ⟨by decide, by decide, by decide, by decide, by decide, by decide, fun j _ =>
    (show memWord [] j = 0#32 by simp only [memWord, memByte]; decide)⟩
theorem witness_HaltStopsAndResumes : State.reset.run = false ∧ State.reset.faulted = false ∧
    (State.reset.setImemWord 0 0x04000000).imemWord 0 = 0x04000000#32 ∧
    exec .halt running = .next (haltSequencer running).advance := ⟨by decide, by decide, by decide, rfl⟩
/-- Addresses at the edges: one word at 4095 fits, two at 4094; one at 4096 and two at 4095 do not, nor -1. -/
theorem witness_Loads : effAddr running 0 (4095#18).toInt + 1 ≤ running.cfg.dmemWords ∧
    effAddr running 0 (4094#18).toInt + 2 ≤ running.cfg.dmemWords ∧
    running.cfg.dmemWords < effAddr running 0 (4096#18).toInt + 1 ∧
    running.cfg.dmemWords < effAddr running 0 (4095#18).toInt + 2 ∧
    effAddr running 0 (-1#18).toInt = 0xFFFFFFFF := by decide
theorem witness_Stores : effAddr (running.writeR 2 4096) 2 (-1#18).toInt + 1 ≤ running.cfg.dmemWords ∧
    effAddr (running.writeR 2 4096) 2 (-2#18).toInt + 2 ≤ running.cfg.dmemWords ∧
    running.cfg.dmemWords < effAddr (running.writeR 2 4096) 2 (0#18).toInt + 1 ∧
    running.cfg.dmemWords < effAddr (running.writeR 2 4096) 2 (-1#18).toInt + 2 := by decide
theorem witness_ScalarFloat : Finite 0x7F7FFFFF ∧ Finite 0x80000001 ∧ (-(2 ^ 24) : Int).natAbs ≤ 2 ^ 24 := by decide
theorem witness_FloatPrimitives :
    (Finite 0x3F800000 ∧ Finite 1 ∧ fValue 0x3F800000 + fValue 1 ≠ 0) ∧
    (Finite 0x3F800000 ∧ Finite 0xBF800000 ∧ fValue 0x3F800000 + fValue 0xBF800000 = 0) ∧
    (Finite 0x80000000 ∧ fUnits 0x80000000 = 0 ∧ fUnits 0x3F800000 ≠ 0) ∧
    isNaN 0x7F800001 = true ∧ isInf 0x7F800000 = true ∧ isInf 0xFF800000 = true := by decide +kernel
theorem witness_FloatIdentities : isNaN 0xFF800000 = false ∧ isNaN 0x00000001 = false := by decide
theorem witness_RoundingIsCorrect : 0 < 3 ∧ 5 < (2 ^ 277 - 2 ^ 252) * 3 ∧
    (2 ^ 277 - 2 ^ 252) * 1 - 1 < (2 ^ 277 - 2 ^ 252) * 1 ∧ (2 ^ 277 - 2 ^ 252) * 1 ≤ 2 ^ 277 - 2 ^ 252 ∧
    infBits - 1 < infBits ∧ patternUnits 1 * 3 ≤ 5 := by decide +kernel
/-- The infinities against 0 and each other (R17, R254). -/
theorem test_compare_infinities : fle 0x7F800000 0 = false ∧ fge 0x7F800000 0x40400000 = true ∧
    fle 0xFF800000 0 = true ∧ fge 0xFF800000 0x40400000 = false ∧ fle 0x7F800000 0x7F800000 = true ∧
    flt 0xFF800000 0xFF800000 = false ∧ flt 0xFF800000 0x7F800000 = true := by decide
theorem witness_FloatTests : isNaN 0xFF800000 = false ∧ Finite 0x80000000 ∧ Finite 0x7F7FFFFF ∧ isNaN 0x7FC00000 = true ∧
    isNaN 0x7F800000 = false ∧ (-(2 ^ 24) : Int).natAbs ≤ 2 ^ 24 := by decide
theorem witness_MaskIsModulo : running.readR 3 = BitVec.ofNat 32 (2 ^ 0 - 1) ∧
    (running.writeR 3 0x7FFFFFFF).readR 3 = BitVec.ofNat 32 (2 ^ 31 - 1) ∧ 31 ≤ 31 := by decide
/-- A loop [2, 6) with the phase just below 6 and at 6, and the empty loop [6, 6). -/
theorem witness_PhaseWrap :
    let below := ((running.writeP 1 0x00000005FFFFFFFF).writeR 3 2).writeR 4 6
    let at6 := ((running.writeP 1 0x0000000600000000).writeR 3 2).writeR 4 6
    let empty := (running.writeR 3 6).writeR 4 6
    ((below.readR 3).toInt < (below.readR 4).toInt ∧ (below.readP 1).toInt < (below.readR 4).toInt * 2 ^ 32) ∧
    ((at6.readR 3).toInt < (at6.readR 4).toInt ∧ (at6.readR 4).toInt * 2 ^ 32 ≤ (at6.readP 1).toInt) ∧
    (empty.readR 4).toInt ≤ (empty.readR 3).toInt := by decide
theorem witness_FracFloat : ((0x7FFFFFFF00000000#64).extractLsb' 0 32).toNat = 0 ∧
    ((0xFFFFFFFF#64).extractLsb' 0 32).toNat = 0xFFFFFFFF ∧ ((0x00FFFFFF#64).extractLsb' 0 32).toNat < 2 ^ 24 ∧
    Finite 0x3F000000 := by decide
/-- -2^31 converts, 2^31 and infinity do not, in both formats; two words at 4094 fit, at 4095 they do not. -/
theorem witness_FixedConversions :
    let holds : Word → Word × Word → State := fun x d => (putWords 4094 [d.2, d.1] running).writeF 2 x
    let low := holds 0xCF000000 (0xC1E00000, 0)
    let high := holds 0x4F000000 (0x41E00000, 0)
    let inf := holds 0x7F800000 (0x7FF00000, 0)
    low.cfg.dmemWords < effAddr low 0 (4095#18).toInt + 2 ∧
    effAddr low 0 (4094#18).toInt + 2 ≤ low.cfg.dmemWords ∧
    (dNotFinite (low.dmemPair 4094) = false ∧ -(2 ^ 31 * 2 ^ 1074) ≤ dValue (low.dmemPair 4094) ∧
      dValue (low.dmemPair 4094) < 2 ^ 31 * 2 ^ 1074) ∧
    (¬ dValue (high.dmemPair 4094) < 2 ^ 31 * 2 ^ 1074) ∧ dNotFinite (inf.dmemPair 4094) = true ∧
    (Finite (low.readF 2) ∧ -(2 ^ 31 * 2 ^ 149) ≤ fValue (low.readF 2) ∧ fValue (low.readF 2) < 2 ^ 31 * 2 ^ 149) ∧
    (¬ fValue (high.readF 2) < 2 ^ 31 * 2 ^ 149) ∧ ¬ Finite (inf.readF 2) ∧
    fValue (low.readF 2) * 2 ^ 925 = dValue (low.dmemPair 4094) := by decide +kernel
theorem witness_FixedIsFloor : 0 < 3 ∧ -(2 ^ 31 * ((3 : Nat) : Int)) ≤ -(2 ^ 31 * 3) ∧
    2 ^ 31 * 3 - 1 < 2 ^ 31 * ((3 : Nat) : Int) := by decide
theorem witness_RepeatedPadd : (running.writeP 1 0x19999999).readP 0 = 0#64 := by decide
theorem witness_AdditiveRamp : (running.readR 4).toNat = 0 ∧
    (0 < ((rampState 0 0 5).readR 4).toNat ∧
      running.cfg.dmemWords < (((rampState 0 0 5).writeR 1 4092).readR 1).toNat + ((rampState 0 0 5).readR 4).toNat) ∧
    (((rampState 0 0 5).writeR 1 4091).readR 1).toNat + ((rampState 0 0 5).readR 4).toNat ≤
      running.cfg.dmemWords := by decide
theorem witness_MultiplicativeRamp : (running.readR 4).toNat = 0 ∧
    (0 < ((rampState 0 0 5).readR 4).toNat ∧
      running.cfg.dmemWords < (((rampState 0 0 5).writeR 1 4092).readR 1).toNat + ((rampState 0 0 5).readR 4).toNat) ∧
    (((rampState 0 0 5).writeR 1 4091).readR 1).toNat + ((rampState 0 0 5).readR 4).toNat ≤ running.cfg.dmemWords ∧
    ¬ (Finite 0x3F800000 ∧ Finite 0x7F800000) ∧
    (Finite 0x80000000 ∧ Finite 0x00000000 ∧ (0x80000000#32).msb ≠ (0x00000000#32).msb) ∧
    (Finite 0xBF800000 ∧ (0xBF800000#32).msb = (0x80000000#32).msb) := by decide
theorem witness_RatioIsFaithful : running.cfg.legal = true ∧ Finite 0x3F800000 ∧ Finite 0x40000000 ∧
    (0x3F800000#32).msb = (0x40000000#32).msb ∧ fge (fabs 0x3F800000) running.cfg.rampFloor = true ∧
    fge (fabs 0x35800000) running.cfg.rampFloor = true ∧ 2 ≤ 2 ∧ 2 ^ 24 ≤ 2 ^ 24 ∧
    running.cfg.ratio = .nearest := by decide
/-- The ramp from 1 to 16 in 4 steps: its ratio is the exact root 2 and its products are exact. -/
theorem witness_MultiplicativeRampProperties : running.cfg.legal = true ∧ 0 < 4 ∧ 0x300 + 4 ≤ running.cfg.dmemWords ∧
    Finite 0x3F800000 ∧ Finite 0x41800000 ∧ (0x3F800000#32).msb = (0x41800000#32).msb ∧
    rampRatio .nearest 0x3F800000 0x41800000 4 = 0x40000000 ∧
    fUnits 0x40000000 ^ 4 * fUnits 0x3F800000 = fUnits 0x41800000 * 2 ^ (149 * 4) ∧
    fUnits (fmul 0x3F800000 0x40000000) * 2 ^ 149 = fUnits 0x3F800000 * fUnits 0x40000000 := by decide +kernel
/-- A rising and a falling ramp of four elements. -/
theorem witness_AdditiveRampIsMonotone :
    let up := rampState 0 0x3F800000 4
    let down := rampState 0x3F800000 0 4
    0 < (up.readR 4).toNat ∧ (up.readR 1).toNat + (up.readR 4).toNat ≤ up.cfg.dmemWords ∧
    Finite (fsub (up.readF 2) (up.readF 1)) ∧ fge (fsub (up.readF 2) (up.readF 1)) 0#32 = true ∧
    Finite (fsub (down.readF 2) (down.readF 1)) ∧ fle (fsub (down.readF 2) (down.readF 1)) 0#32 = true := by
  decide +kernel
/-- The values that refute the bound: the premises hold of them. -/
theorem witness_AdditiveRampStaysBetween : 1 + 1 < 3 ∧ 3 ≤ 2 ^ 24 ∧ Finite 0 ∧ Finite 0x7F7FFFFF ∧
    Finite (fsub 0x7F7FFFFF 0) ∧ fge (fsub 0x7F7FFFFF 0) 0#32 = true := by decide +kernel
/-- The same ramps: their products are finite, and `A + D` is `final`. -/
theorem witness_AdditiveRampStaysBetweenWithoutOverflow :
    let up := rampState 0 0x3F800000 4
    let down := rampState 0x3F800000 0 4
    up.cfg.legal = true ∧ 0 < (up.readR 4).toNat ∧ (up.readR 1).toNat + (up.readR 4).toNat ≤ up.cfg.dmemWords ∧
    (Finite (fsub (up.readF 2) (up.readF 1)) ∧ Finite (fmul (intToFloat 3) (fsub (up.readF 2) (up.readF 1))) ∧
      fge (fsub (up.readF 2) (up.readF 1)) 0#32 = true ∧
      fadd (up.readF 1) (fsub (up.readF 2) (up.readF 1)) = up.readF 2) ∧
    (Finite (fsub (down.readF 2) (down.readF 1)) ∧
      Finite (fmul (intToFloat 3) (fsub (down.readF 2) (down.readF 1))) ∧
      fle (fsub (down.readF 2) (down.readF 1)) 0#32 = true ∧
      fadd (down.readF 1) (fsub (down.readF 2) (down.readF 1)) = down.readF 2) := by decide +kernel
theorem witness_LerpCorners : Finite 0x80000000 ∧ Finite 0x3F800000 ∧ Finite (fsub 0x3F800000 0x80000000) := by
  decide +kernel

/-- The descriptor of `waveState` is valid. -/
theorem waveDescOk_waveState : WaveDescOk (waveState 2 7 0) 16 :=
  ⟨by decide, by decide, by decide, fun _ => ⟨2, by decide⟩, by decide⟩
theorem witness_WavetableLookup :
    ((waveState 2 7 0).readR 1).toNat + 4 ≤ running.cfg.dmemWords ∧ WaveDescOk (waveState 2 7 0) 16 ∧
    isNaN ((waveState 2 7 0).readF 2) = false ∧ (2#32).getLsbD 0 = false ∧
    (0 ≤ (3#32 : Word).toInt ∧ (3#32 : Word).toInt < 4) :=
  ⟨by decide, waveDescOk_waveState, by decide, by decide, by decide⟩
/-- One state for each check of `WLK` that fails first, and one that passes them all. -/
theorem witness_WavetableChecks :
    running.cfg.dmemWords < ((running.writeR 1 4093).readR 1).toNat + 4 ∧
    (((running.writeR 1 4092).readR 1).toNat + 4 ≤ running.cfg.dmemWords ∧ ¬ WaveDescOk (running.writeR 1 4092) 4092) ∧
    (WaveDescOk (waveState 2 7 0) 16 ∧ 1 < ((waveState 2 7 0).dmemWord 18).toNat ∧
      isNaN (((waveState 2 7 0).writeF 2 0x7FC00000).readF 2) = true) ∧
    (((waveState 1 2 0x0000000400000000).dmemWord 19).getLsbD 0 = false ∧
      ¬ 1 < ((waveState 1 2 0x0000000400000000).dmemWord 18).toNat ∧
      ¬ (((waveState 1 2 0x0000000400000000).readP 0).extractLsb' 32 32).toInt <
        ((waveState 1 2 0x0000000400000000).dmemWord 17).toNat) ∧
    ¬ 0 ≤ (((waveState 1 2 0xFFFFFFFF00000000).readP 0).extractLsb' 32 32).toInt :=
  ⟨by decide, ⟨by decide, fun h => absurd h.1 (by decide)⟩, ⟨waveDescOk_waveState, by decide, by decide⟩,
    by decide, by decide⟩
theorem witness_WavetableIndices : 31 ≤ 31 ∧ (WaveDesc.mk 0 (2 ^ 31) 1 1).len = 2 ^ 31 ∧
    wrapBit (WaveDesc.mk 0 1 1 1) = true ∧ Finite 0x4B800000 ∧ (0x4B800000#32).msb = false ∧
    floorNonneg 0x4B800000 ≤ 2 ^ 24 := by decide +kernel
theorem witness_ZeroCountDoesNothing : running.readR 4 = 0#32 := by decide
/-- Regions at the edges of data memory: a descriptor at 4087, a source at 4095, a target at 4095 leave it, each
with the regions before it inside. -/
theorem witness_FilterChecks :
    let descriptor := (iirState 2 [] [] []).writeR 1 4087
    let source := ((iirState 2 [] [] []).writeR 1 4086).writeR 2 4095
    let target := (source.writeR 2 4094).writeR 3 4095
    descriptor.readR 4 ≠ 0#32 ∧ descriptor.cfg.dmemWords < (descriptor.readR 1).toNat + 10 ∧
    ((source.readR 1).toNat + 10 ≤ source.cfg.dmemWords ∧
      source.cfg.dmemWords < (source.readR 2).toNat + (source.readR 4).toNat) ∧
    ((target.readR 1).toNat + 10 ≤ target.cfg.dmemWords ∧
      (target.readR 2).toNat + (target.readR 4).toNat ≤ target.cfg.dmemWords ∧
      target.cfg.dmemWords < (target.readR 3).toNat + (target.readR 4).toNat) := by decide
theorem witness_DirectFormI : 0 < ((iirState 2 [] [] []).readR 4).toNat ∧
    ((iirState 2 [] [] []).readR 1).toNat + 10 ≤ running.cfg.dmemWords ∧
    ((iirState 2 [] [] []).readR 2).toNat + 2 ≤ running.cfg.dmemWords ∧
    ((iirState 2 [] [] []).readR 3).toNat + 2 ≤ running.cfg.dmemWords := by decide
theorem witness_DirectFormII : 0 < ((iirState 1 [] [] []).readR 4).toNat ∧
    (((iirState 1 [] [] []).writeR 1 4086).readR 1).toNat + 10 ≤ running.cfg.dmemWords := by decide
theorem witness_AllPole : 0 < ((iirState 1 [] [] []).readR 4).toNat ∧
    (((iirState 1 [] [] []).writeR 1 4092).readR 1).toNat + 4 ≤ running.cfg.dmemWords := by decide
/-- A filter in place, and one whose target follows its source. -/
theorem witness_InPlaceFilterAndHistory :
    let inPlace := (iirState 2 [] [] []).writeR 2 0x200
    let follows := (iirState 2 [] [] []).writeR 2 0x1FE
    0 < (inPlace.readR 4).toNat ∧ (inPlace.readR 1).toNat + 10 ≤ inPlace.cfg.dmemWords ∧
    (inPlace.readR 3).toNat + 2 ≤ inPlace.cfg.dmemWords ∧ (inPlace.readR 2).toNat = (inPlace.readR 3).toNat ∧
    Apart (follows.readR 2).toNat 2 (follows.readR 3).toNat 2 ∧
    Apart (inPlace.readR 1).toNat 10 (inPlace.readR 3).toNat 2 := by decide
/-- An all-pole descriptor of 4 words whose target follows at once, so that 10 words would overlap it, and one at
the end of data memory. -/
theorem witness_InPlaceFilterAndHistory_allPole :
    let near := (iirState 2 [] [] []).writeR 3 0x44
    let last := (iirState 2 [] [] []).writeR 1 4092
    Apart (near.readR 1).toNat 4 (near.readR 3).toNat 2 ∧ ¬ Apart (near.readR 1).toNat 10 (near.readR 3).toNat 2 ∧
    Apart (near.readR 2).toNat 2 (near.readR 3).toNat 2 ∧ (near.readR 3).toNat + 2 ≤ near.cfg.dmemWords ∧
    (last.readR 1).toNat + 4 ≤ last.cfg.dmemWords ∧ Apart (last.readR 1).toNat 4 (last.readR 3).toNat 2 := by decide
/-- Registers 1 to 3 and 5 to 8 hold the operands of a run of 5 elements split into 2 and 3. -/
theorem witness_SplitRunEqualsOneRun :
    let s := ((((iirState 2 [] [] []).writeR 5 0x102).writeR 6 0x202).writeR 7 3).writeR 8 5
    (s.readR 4).toNat + (s.readR 7).toNat = (s.readR 8).toNat ∧
    (s.readR 5).toNat = (s.readR 2).toNat + (s.readR 4).toNat ∧
    (s.readR 6).toNat = (s.readR 3).toNat + (s.readR 4).toNat ∧
    (s.readR 1).toNat + 10 ≤ s.cfg.dmemWords ∧ (s.readR 2).toNat + 5 ≤ s.cfg.dmemWords ∧
    (s.readR 3).toNat + 5 ≤ s.cfg.dmemWords ∧ Apart (s.readR 1).toNat 10 (s.readR 2).toNat 5 ∧
    Apart (s.readR 1).toNat 10 (s.readR 3).toNat 5 := by decide
theorem witness_UnityFilterCopies : (∀ j : Nat, Finite ((fun _ => 0x80000000#32 : Nat → Word) j)) ∧
    (∀ j : Nat, Finite ((fun _ => 0x3F800000#32 : Nat → Word) j)) :=
  ⟨fun _ => (by decide : Finite 0x80000000), fun _ => (by decide : Finite 0x3F800000)⟩
theorem witness_HostWindow : State.reset.cfg.legal = true ∧ State.reset.run = false ∧
    1023 < State.reset.cfg.imemWords ∧ 4095 < State.reset.cfg.dmemWords ∧ (0x30 ≤ 0xFC ∧ 0xFC < 0x100) ∧
    (0x1C0 ≤ 0x1C0 ∧ 0x1C0 < 0x10000) ∧ 0x10000 + 4 * State.reset.cfg.imemWords ≤ 0x11000 ∧
    0x4000000 + 4 * State.reset.cfg.dmemWords ≤ 0x4004000 := by decide
theorem witness_HostDuties : running.cfg.legal = true ∧ (2 ≠ 4 ∨ 0 % 4 ≠ 0) ∧ 0x4003FFC % 4 = 0 ∧
    running.run = true ∧ 0x4003FFC < 0x4000000 + 4 * running.cfg.dmemWords ∧
    ¬ 0x4004000 < 0x4000000 + 4 * running.cfg.dmemWords ∧ State.reset.run = false := by decide
theorem witness_ControlRegister : State.reset.run = false ∧ State.reset.faulted = false ∧ running.run = true ∧
    running.pendingCtrl = [] ∧ (9#32).getLsbD 3 = true ∧ (7#32).getLsbD 3 = false ∧
    ({ State.reset with faulted := true } : State).faulted = true := by decide
theorem witness_StatusAndInterruptRegisters : State.reset.run = false := by decide
/-- A STOP alone and a STOP with START pending, before a turn of the sequencer, of the host's STOP, or of neither. -/
theorem witness_StopFinishesInstruction :
    let stopping : State := { running with pendingCtrl := [8] }
    stopping.cfg.legal = true ∧ stopping.run = true ∧ stopping.turns = [] ∧
    ({ stopping with turns := [.sequencer] } : State).turns.head? = some .sequencer ∧
    ({ stopping with turns := [.stopTakesEffect] } : State).turns = [.stopTakesEffect] ∧
    ({ running with pendingCtrl := [9, 8] } : State).pendingCtrl = [9, 8] ∧ running.pendingCtrl = [] ∧
    (0xFFFFFFF8#32).getLsbD 3 = true ∧ 0x4003FFC % 4 = 0 ∧ 0x4003FFC < 0x4000000 + 4 * running.cfg.dmemWords ∧
    observe (instructionStep (runningWord 0x04000000)) (fun t => t.run) = some false := by decide
theorem witness_RetryFaultsAgain : (runningWord 0xFFFFFFFF).cfg.legal = true ∧ (runningWord 0xFFFFFFFF).run = true ∧
    (runningWord 0xFFFFFFFF).faulted = false ∧ (runningWord 0xFFFFFFFF).turns = [] ∧
    observe (step (runningWord 0xFFFFFFFF)) (fun t => t.faulted) = some true := by decide

end Sys2Proof.Tests
end

section
/-! SUPPORT. The fields of a binary32 pattern and its classes (R14, R17), said by its sign and its bits 30:0: a NaN
lies above the pattern of infinity, a finite value below it. -/

namespace Sys2Proof.Machine

/-! ## Sign and bits 30:0 -/

theorem fMagBits_eq_mod (x : Word) : fMagBits x = x.toNat % 2 ^ 31 := by
  simp [fMagBits, BitVec.extractLsb'_toNat]

theorem fMagBits_lt (x : Word) : fMagBits x < 2 ^ 31 := BitVec.isLt _

theorem fExpField_eq_div (x : Word) : fExpField x = fMagBits x / 2 ^ 23 := by
  rw [fMagBits_eq_mod, fExpField, BitVec.extractLsb'_toNat, Nat.shiftRight_eq_div_pow]
  omega

theorem fFracField_eq_mod (x : Word) : fFracField x = fMagBits x % 2 ^ 23 := by
  rw [fMagBits_eq_mod, fFracField, BitVec.extractLsb'_toNat, Nat.shiftRight_zero]
  omega

@[simp] theorem fSign_fPack (negative : Bool) (bits : Nat) : fSign (fPack negative bits) = negative :=
  BitVec.msb_append.trans (by cases negative <;> rfl)

theorem fMagBits_fPack (negative : Bool) {bits : Nat} (h : bits < 2 ^ 31) : fMagBits (fPack negative bits) = bits := by
  rw [fMagBits, fPack, BitVec.extractLsb'_append_eq_right, BitVec.toNat_ofNat, Nat.mod_eq_of_lt h]

/-- Every pattern is its sign and its bits 30:0. -/
@[simp] theorem fPack_fSign_fMagBits (x : Word) : fPack (fSign x) (fMagBits x) = x := by
  rw [fPack, fMagBits, BitVec.ofNat_toNat, BitVec.setWidth_eq, fSign, BitVec.msb_eq_getLsbD_last]
  exact BitVec.eq_of_getLsbD_eq fun i hi => by
    rw [BitVec.getLsbD_append]
    split
    · simp [*]
    · obtain rfl : i = 31 := by omega
      simp

theorem eq_of_fSign_fMagBits {x y : Word} (hs : fSign x = fSign y) (hm : fMagBits x = fMagBits y) : x = y := by
  rw [← fPack_fSign_fMagBits x, hs, hm, fPack_fSign_fMagBits]

theorem fMagBits_fNegate (x : Word) : fMagBits (fNegate x) = fMagBits x := by
  rw [fMagBits, fNegate, BitVec.extractLsb'_xor]
  simp [fMagBits]

/-! ## The three classes of patterns -/

theorem isNaN_iff_fMagBits (x : Word) : isNaN x = true ↔ infBits < fMagBits x := by
  have := fMagBits_lt x
  simp only [isNaN, fExpField_eq_div, fFracField_eq_mod, infBits, Bool.and_eq_true, beq_iff_eq, bne_iff_ne]
  omega

theorem isInf_iff_fMagBits (x : Word) : isInf x = true ↔ fMagBits x = infBits := by
  have := fMagBits_lt x
  simp only [isInf, fExpField_eq_div, fFracField_eq_mod, infBits, Bool.and_eq_true, beq_iff_eq]
  omega

theorem isNaN_eq_false_iff (x : Word) : isNaN x = false ↔ fMagBits x ≤ infBits := by
  rw [← Bool.not_eq_true, isNaN_iff_fMagBits, Nat.not_lt]

theorem finite_iff_fMagBits (x : Word) : Finite x ↔ fMagBits x < infBits := by
  rw [Finite, isNaN_eq_false_iff, ← Bool.not_eq_true, isInf_iff_fMagBits, Nat.lt_iff_le_and_ne]

theorem isNaN_eq_false_of_isInf {x : Word} (h : isInf x = true) : isNaN x = false :=
  (isNaN_eq_false_iff x).2 (Nat.le_of_eq ((isInf_iff_fMagBits x).1 h))

/-- A pattern that is no NaN is finite or the infinity of its sign. -/
theorem finite_or_isInf {x : Word} (h : isNaN x = false) : Finite x ∨ isInf x = true := by
  cases hi : isInf x
  · exact .inl ⟨h, hi⟩
  · exact .inr rfl

theorem infBits_lt : infBits < 2 ^ 31 := by decide

/-- An infinity is determined by its sign. -/
theorem fInf_fSign_of_isInf {x : Word} (h : isInf x = true) : fInf (fSign x) = x := by
  rw [fInf, ← (isInf_iff_fMagBits x).1 h, fPack_fSign_fMagBits]

theorem eq_iff_fSign_of_isInf {x y : Word} (hx : isInf x = true) (hy : isInf y = true) : x = y ↔ fSign x = fSign y :=
  ⟨fun h => h ▸ rfl, fun h => by rw [← fInf_fSign_of_isInf hx, h, fInf_fSign_of_isInf hy]⟩

theorem isNaN_fNegate (x : Word) : isNaN (fNegate x) = isNaN x := by
  rw [Bool.eq_iff_iff, isNaN_iff_fMagBits, isNaN_iff_fMagBits, fMagBits_fNegate]

theorem finite_fPack (negative : Bool) {bits : Nat} (h : bits < infBits) : Finite (fPack negative bits) := by
  rw [finite_iff_fMagBits, fMagBits_fPack _ (Nat.lt_trans h infBits_lt)]
  exact h

end Sys2Proof.Machine
end

section
/-! SUPPORT. The magnitude of a pattern in units of 2^-149 (R14): a significand times a power of two, and strictly
increasing in the pattern. -/

namespace Sys2Proof.Machine

/-- The pattern of a significand `m` at the spacing `2 ^ e`. The carry `m = 2 ^ 24` gives the next exponent field, so
a rounded significand needs no case of its own. -/
theorem patternUnits_significand {e m : Nat} (hm : m ≤ 2 ^ 24) (he : 2 ^ 23 ≤ m ∨ e = 0) :
    patternUnits (e * 2 ^ 23 + m) = m * 2 ^ e := by
  rcases Nat.lt_or_ge m (2 ^ 23) with hsub | hnormal
  · obtain rfl : e = 0 := he.resolve_left (by omega)
    rw [patternUnits, if_pos (by omega)]
    omega
  · rcases Nat.lt_or_eq_of_le hm with hlt | rfl
    · have hdiv : (e * 2 ^ 23 + m) / 2 ^ 23 = e + 1 := by omega
      have hmod : 2 ^ 23 + (e * 2 ^ 23 + m) % 2 ^ 23 = m := by omega
      rw [patternUnits, if_neg (by omega), hmod, hdiv, Nat.add_sub_cancel]
    · have hdiv : (e * 2 ^ 23 + 2 ^ 24) / 2 ^ 23 = e + 2 := by omega
      have hmod : (e * 2 ^ 23 + 2 ^ 24) % 2 ^ 23 = 0 := by omega
      rw [patternUnits, if_neg (by omega), hmod, hdiv, show e + 2 - 1 = e + 1 by omega, Nat.pow_succ]
      omega

/-- Every pattern is a significand at a spacing. -/
theorem exists_significand (bits : Nat) :
    ∃ e m, bits = e * 2 ^ 23 + m ∧ m < 2 ^ 24 ∧ (2 ^ 23 ≤ m ∨ e = 0) :=
  ⟨bits / 2 ^ 23 - 1, bits - (bits / 2 ^ 23 - 1) * 2 ^ 23, by omega, by omega, by omega⟩

theorem patternUnits_lt_succ (bits : Nat) : patternUnits bits < patternUnits (bits + 1) := by
  obtain ⟨e, m, rfl, hm, he⟩ := exists_significand bits
  rw [patternUnits_significand (Nat.le_of_lt hm) he, Nat.add_assoc, patternUnits_significand hm (by omega)]
  exact Nat.mul_lt_mul_of_pos_right (Nat.lt_succ_self m) (Nat.two_pow_pos e)

theorem patternUnits_lt {a b : Nat} (h : a < b) : patternUnits a < patternUnits b := by
  induction h with
  | refl => exact patternUnits_lt_succ a
  | step _ ih => exact Nat.lt_trans ih (patternUnits_lt_succ _)

theorem patternUnits_le_iff {a b : Nat} : patternUnits a ≤ patternUnits b ↔ a ≤ b := by
  rcases Nat.lt_trichotomy a b with hlt | rfl | hgt
  · exact iff_of_true (Nat.le_of_lt (patternUnits_lt hlt)) (Nat.le_of_lt hlt)
  · exact iff_of_true (Nat.le_refl _) (Nat.le_refl _)
  · exact iff_of_false (Nat.not_le.2 (patternUnits_lt hgt)) (Nat.not_le.2 hgt)

theorem patternUnits_inj {a b : Nat} : patternUnits a = patternUnits b ↔ a = b := by
  simp only [Nat.eq_iff_le_and_ge, patternUnits_le_iff]

/-- The pattern of infinity stands for 2^128. -/
theorem patternUnits_infBits : patternUnits infBits = 2 ^ 277 :=
  (patternUnits_significand (e := 253) (Nat.le_refl _) (.inl (by decide))).trans
    (by rw [show 277 = 24 + 253 from rfl, Nat.pow_add 2 24 253])

/-- The greatest finite magnitude, 2^128 - 2^104. -/
theorem patternUnits_infBits_pred : patternUnits (infBits - 1) = 2 ^ 277 - 2 ^ 253 :=
  (patternUnits_significand (e := 253) (m := 2 ^ 24 - 1) (by decide) (.inl (by decide))).trans
    (by rw [Nat.sub_mul, Nat.one_mul, show 277 = 24 + 253 from rfl, Nat.pow_add 2 24 253])

/-- A significand of 24 bits has a pattern at every spacing: a small one is shifted up as far as the spacing lets it. -/
theorem exists_patternUnits_eq (e : Nat) : ∀ m ≤ 2 ^ 24, ∃ bits, patternUnits bits = m * 2 ^ e := by
  induction e with
  | zero => exact fun m hm => ⟨0 * 2 ^ 23 + m, patternUnits_significand hm (.inr rfl)⟩
  | succ e ih =>
    intro m hm
    rcases Nat.lt_or_ge m (2 ^ 23) with hsmall | hlarge
    · obtain ⟨bits, hbits⟩ := ih (2 * m) (by omega)
      exact ⟨bits, by rw [hbits, Nat.pow_succ, Nat.mul_comm 2 m, Nat.mul_assoc, Nat.mul_comm 2]⟩
    · exact ⟨(e + 1) * 2 ^ 23 + m, patternUnits_significand hm (.inl hlarge)⟩

/-! ## Units and value of a word -/

theorem fUnits_eq_zero_iff (x : Word) : fUnits x = 0 ↔ fMagBits x = 0 :=
  patternUnits_inj (b := 0)

theorem fUnits_fPack (negative : Bool) {bits : Nat} (h : bits < 2 ^ 31) :
    fUnits (fPack negative bits) = patternUnits bits := by
  rw [fUnits, fMagBits_fPack _ h]

theorem fUnits_pos_of_isInf {x : Word} (h : isInf x = true) : fUnits x ≠ 0 := by
  rw [Ne, fUnits_eq_zero_iff, (isInf_iff_fMagBits x).1 h]
  decide

/-- A word of magnitude 0 is finite. -/
theorem finite_of_fUnits_eq_zero {x : Word} (h : fUnits x = 0) : Finite x := by
  rw [finite_iff_fMagBits, (fUnits_eq_zero_iff x).1 h]
  decide

theorem fValue_eq_zero_iff (x : Word) : fValue x = 0 ↔ fMagBits x = 0 := by
  rw [← fUnits_eq_zero_iff, fValue]
  split <;> omega

theorem natAbs_fValue (x : Word) : (fValue x).natAbs = fUnits x := by
  rw [fValue]
  split <;> omega

/-- The sign of a value that is not 0 is its sign bit. -/
theorem fValue_neg_iff {x : Word} (h : fValue x ≠ 0) : decide (fValue x < 0) = fSign x := by
  rw [fValue] at h ⊢
  cases hs : fSign x <;> simp only [hs, if_true, if_false, Bool.false_eq_true] at h ⊢ <;>
    simp only [decide_eq_true_eq, decide_eq_false_iff_not] <;> omega

/-- The order key orders the finite patterns as their values. -/
theorem fValue_le_iff_orderKey (x y : Word) : fValue x ≤ fValue y ↔ orderKey x ≤ orderKey y := by
  have hle : fUnits x ≤ fUnits y ↔ fMagBits x ≤ fMagBits y := patternUnits_le_iff
  have hge : fUnits y ≤ fUnits x ↔ fMagBits y ≤ fMagBits x := patternUnits_le_iff
  have hx := fUnits_eq_zero_iff x
  have hy := fUnits_eq_zero_iff y
  rw [fValue, fValue, orderKey, orderKey]
  split <;> split <;> omega

end Sys2Proof.Machine
end

section
/-! SUPPORT. Rounding to binary32 (R15) as a choice between two neighbours: the greatest pattern that is not above
the magnitude, and the next one. -/

namespace Sys2Proof.Machine

/-! ## The pattern below a magnitude -/

/-- The greatest pattern that is not above the magnitude `num / den` units, infinities counted as more patterns
(`le_floorBits_iff`). -/
def floorBits (num den : Nat) : Nat := spacingExp num den * 2 ^ 23 + num / (den * 2 ^ spacingExp num den)

/-- At the spacing of a magnitude its significand has at most 24 bits, and exactly 24 in the normal range. -/
theorem significand_range (num den : Nat) :
    num / (den * 2 ^ spacingExp num den) < 2 ^ 24 ∧
      (2 ^ 23 ≤ num / (den * 2 ^ spacingExp num den) ∨ spacingExp num den = 0) := by
  rw [← Nat.div_div_eq_div_mul, spacingExp]
  generalize num / den = n
  have hlt : n < 2 ^ (n.log2 + 1) := Nat.lt_log2_self
  rcases Nat.lt_or_ge n.log2 24 with hsub | hnormal
  · have hn : n < 2 ^ 24 := Nat.lt_of_lt_of_le hlt (Nat.pow_le_pow_right (by decide) (by omega))
    rw [Nat.sub_eq_zero_of_le (Nat.le_of_lt_succ hsub)]
    exact ⟨by rwa [Nat.pow_zero, Nat.div_one], .inr rfl⟩
  · have hn : n ≠ 0 := by
      rintro rfl
      exact absurd hnormal (by decide)
    have hle : 2 ^ n.log2 ≤ n := Nat.log2_self_le hn
    have hpow : 2 ^ n.log2 = 2 ^ 23 * 2 ^ (n.log2 - 23) := by
      rw [← Nat.pow_add, Nat.add_sub_cancel' (Nat.le_of_succ_le hnormal)]
    constructor
    · rw [Nat.div_lt_iff_lt_mul (Nat.two_pow_pos _)]
      rw [Nat.pow_succ, hpow] at hlt
      omega
    · exact .inl ((Nat.le_div_iff_mul_le (Nat.two_pow_pos _)).2 (hpow ▸ hle))

theorem patternUnits_floorBits (num den : Nat) :
    patternUnits (floorBits num den) = num / (den * 2 ^ spacingExp num den) * 2 ^ spacingExp num den :=
  patternUnits_significand (Nat.le_of_lt (significand_range num den).1) (significand_range num den).2

theorem patternUnits_floorBits_succ (num den : Nat) :
    patternUnits (floorBits num den + 1) =
      (num / (den * 2 ^ spacingExp num den) + 1) * 2 ^ spacingExp num den := by
  rw [floorBits, Nat.add_assoc]
  exact patternUnits_significand (significand_range num den).1
    ((significand_range num den).2.imp_left fun h => Nat.le_succ_of_le h)

theorem floorBits_mod_two (num den : Nat) :
    floorBits num den % 2 = num / (den * 2 ^ spacingExp num den) % 2 := by
  rw [floorBits]
  omega

theorem patternUnits_floorBits_mul (num den : Nat) :
    patternUnits (floorBits num den) * den =
      den * 2 ^ spacingExp num den * (num / (den * 2 ^ spacingExp num den)) := by
  rw [patternUnits_floorBits, Nat.mul_assoc, Nat.mul_comm, Nat.mul_comm den]

theorem patternUnits_floorBits_succ_mul (num den : Nat) :
    patternUnits (floorBits num den + 1) * den =
      den * 2 ^ spacingExp num den * (num / (den * 2 ^ spacingExp num den) + 1) := by
  rw [patternUnits_floorBits_succ, Nat.mul_assoc, Nat.mul_comm, Nat.mul_comm den]

theorem patternUnits_floorBits_le (num den : Nat) : patternUnits (floorBits num den) * den ≤ num := by
  rw [patternUnits_floorBits_mul]
  exact Nat.mul_div_le num _

theorem lt_patternUnits_floorBits_succ {den : Nat} (hden : 0 < den) (num : Nat) :
    num < patternUnits (floorBits num den + 1) * den := by
  rw [patternUnits_floorBits_succ_mul]
  exact Nat.lt_mul_div_succ num (Nat.mul_pos hden (Nat.two_pow_pos _))

theorem le_floorBits_iff {den : Nat} (hden : 0 < den) {num bits : Nat} :
    bits ≤ floorBits num den ↔ patternUnits bits * den ≤ num := by
  constructor
  · intro h
    exact Nat.le_trans (Nat.mul_le_mul_right den (patternUnits_le_iff.2 h)) (patternUnits_floorBits_le num den)
  · intro h
    have hlt := Nat.lt_of_le_of_lt h (lt_patternUnits_floorBits_succ hden num)
    rw [← Nat.not_lt]
    intro hgt
    have hle := Nat.mul_le_mul_right den (patternUnits_le_iff.2 (Nat.succ_le_of_lt hgt))
    exact Nat.lt_irrefl _ (Nat.lt_of_lt_of_le hlt hle)

/-! ## The two roundings as choices -/

theorem truncatedBits_eq_min (num den : Nat) : truncatedBits num den = min (floorBits num den) (infBits - 1) := rfl

/-- Twice the distances from a remainder to both ends of its interval decide `divNearest`. -/
theorem divNearest_cases (num d : Nat) :
    (divNearest num d = num / d ∧ 2 * (num % d) ≤ d ∧ (2 * (num % d) = d → num / d % 2 = 0)) ∨
    (divNearest num d = num / d + 1 ∧ d ≤ 2 * (num % d) ∧ (2 * (num % d) = d → num / d % 2 = 1)) := by
  rw [divNearest]
  repeat' split
  all_goals omega

/-- Both neighbours of the magnitude `num / den` added up: twice their midpoint, scaled by `den`. -/
def neighbourSum (num den : Nat) : Nat :=
  patternUnits (floorBits num den) * den + patternUnits (floorBits num den + 1) * den

/-- The nearest rounding takes the pattern below or the next one, by the side of their midpoint on which the magnitude
lies, and the even one at the midpoint. -/
theorem nearestBits_cases (num den : Nat) :
    (nearestBits num den = min (floorBits num den) infBits ∧ 2 * num ≤ neighbourSum num den ∧
      (2 * num = neighbourSum num den → floorBits num den % 2 = 0)) ∨
    (nearestBits num den = min (floorBits num den + 1) infBits ∧ neighbourSum num den ≤ 2 * num ∧
      (2 * num = neighbourSum num den → (floorBits num den + 1) % 2 = 0)) := by
  have hparity := floorBits_mod_two num den
  have hsum : neighbourSum num den = 2 * (den * 2 ^ spacingExp num den * (num / (den * 2 ^ spacingExp num den))) +
      den * 2 ^ spacingExp num den := by
    rw [neighbourSum, patternUnits_floorBits_mul, patternUnits_floorBits_succ_mul, Nat.mul_succ, Nat.two_mul,
      Nat.add_assoc]
  have hsplit := Nat.div_add_mod num (den * 2 ^ spacingExp num den)
  rw [hsum, nearestBits]
  rcases divNearest_cases num (den * 2 ^ spacingExp num den) with ⟨hq, hside, htie⟩ | ⟨hq, hside, htie⟩
  · exact .inl ⟨by rw [hq, floorBits], by omega, fun h => by omega⟩
  · exact .inr ⟨by rw [hq, floorBits, Nat.add_assoc], by omega, fun h => by omega⟩

/-! ## The overflow threshold -/

/-- Twice the midpoint of the greatest finite magnitude and 2^128: from it on a magnitude overflows. -/
def overflowSum : Nat := patternUnits (infBits - 1) + patternUnits infBits

/-- The midpoint is the threshold 2^128 - 2^103 of R15. -/
theorem overflowSum_eq : overflowSum = 2 * (2 ^ 277 - 2 ^ 252) := by
  have hmax := patternUnits_infBits_pred
  have hinf := patternUnits_infBits
  have h277 : 2 ^ 277 = 2 ^ 25 * 2 ^ 252 := by rw [show 277 = 25 + 252 from rfl, Nat.pow_add 2 25 252]
  have h253 : 2 ^ 253 = 2 ^ 1 * 2 ^ 252 := Nat.pow_add 2 1 252
  unfold overflowSum
  generalize 2 ^ 277 = inf at *
  generalize 2 ^ 253 = spacing at *
  generalize 2 ^ 252 = half at *
  omega

/-- The threshold scaled by a denominator. -/
theorem overflowSum_mul (den : Nat) : overflowSum * den = 2 * ((2 ^ 277 - 2 ^ 252) * den) := by
  have h := overflowSum_eq
  generalize 2 ^ 277 - 2 ^ 252 = threshold at h ⊢
  rw [h, Nat.mul_assoc]

theorem patternUnits_mul_lt {den a b : Nat} (hden : 0 < den) (h : a < b) :
    patternUnits a * den < patternUnits b * den :=
  Nat.mul_lt_mul_of_pos_right (patternUnits_lt h) hden

section
variable {num den : Nat} (hden : 0 < den)
include hden

/-- From the midpoint on the nearest rounding is infinity, the pattern of infinity being even. -/
theorem nearestBits_of_overflow (h : overflowSum * den ≤ 2 * num) : nearestBits num den = infBits := by
  rw [overflowSum, Nat.add_mul] at h
  have hlt := patternUnits_mul_lt hden (show infBits - 1 < infBits by decide)
  have hmax : infBits - 1 ≤ floorBits num den := (le_floorBits_iff hden).2 (by omega)
  rcases nearestBits_cases num den with ⟨hbits, hside, htie⟩ | ⟨hbits, -, -⟩
  · rcases Nat.eq_or_lt_of_le hmax with heq | hgt
    · rw [neighbourSum, ← heq, Nat.sub_add_cancel (by decide)] at hside htie
      exact absurd (htie (Nat.le_antisymm hside h)) (by decide)
    · rw [hbits, Nat.min_eq_right (by omega)]
  · rw [hbits, Nat.min_eq_right (by omega)]

/-- Below the midpoint the nearest rounding is finite: the pattern below the magnitude or the next one. -/
theorem nearestBits_cases_of_not_overflow (h : 2 * num < overflowSum * den) :
    nearestBits num den < infBits ∧ (2 * num = neighbourSum num den → nearestBits num den % 2 = 0) ∧
    ((nearestBits num den = floorBits num den ∧ 2 * num ≤ neighbourSum num den) ∨
      (nearestBits num den = floorBits num den + 1 ∧ neighbourSum num den ≤ 2 * num)) := by
  rw [overflowSum, Nat.add_mul] at h
  have hlt := patternUnits_mul_lt hden (show infBits - 1 < infBits by decide)
  have hfinite : floorBits num den < infBits := by
    rw [← Nat.not_le, le_floorBits_iff hden]
    omega
  rcases nearestBits_cases num den with ⟨hbits, hside, htie⟩ | ⟨hbits, hside, htie⟩
  · rw [Nat.min_eq_left (Nat.le_of_lt hfinite)] at hbits
    rw [hbits]
    exact ⟨hfinite, htie, .inl ⟨rfl, hside⟩⟩
  · have hnext : floorBits num den + 1 ≠ infBits := by
      intro heq
      rw [neighbourSum, heq, show floorBits num den = infBits - 1 by omega] at hside
      omega
    have hlast : floorBits num den + 1 < infBits := by omega
    rw [Nat.min_eq_left (Nat.le_of_lt hlast)] at hbits
    rw [hbits]
    exact ⟨hlast, htie, .inr ⟨rfl, hside⟩⟩

/-- Every pattern is one of both neighbours of the magnitude, or lies beyond one of them. -/
theorem patternUnits_mul_cases (num bits : Nat) :
    patternUnits bits * den < patternUnits (floorBits num den) * den ∨ bits = floorBits num den ∨
    bits = floorBits num den + 1 ∨ patternUnits (floorBits num den + 1) * den < patternUnits bits * den := by
  rcases Nat.lt_trichotomy bits (floorBits num den) with hlt | heq | hgt
  · exact .inl (patternUnits_mul_lt hden hlt)
  · exact .inr (.inl heq)
  · rcases Nat.eq_or_lt_of_le (Nat.succ_le_of_lt hgt) with heq | hlt
    · exact .inr (.inr (.inl heq.symm))
    · exact .inr (.inr (.inr (patternUnits_mul_lt hden hlt)))

/-- No pattern is nearer than the rounded one, and of two as near the rounded one is even. -/
theorem nearestBits_nearest (h : 2 * num < overflowSum * den) (bits : Nat) :
    ((num : Int) - patternUnits (nearestBits num den) * den).natAbs ≤
        ((num : Int) - patternUnits bits * den).natAbs ∧
      (((num : Int) - patternUnits (nearestBits num den) * den).natAbs =
          ((num : Int) - patternUnits bits * den).natAbs →
        bits = nearestBits num den ∨ nearestBits num den % 2 = 0) := by
  obtain ⟨-, htie, hcases⟩ := nearestBits_cases_of_not_overflow hden h
  have hlow := patternUnits_floorBits_le num den
  have hhigh := lt_patternUnits_floorBits_succ hden num
  rw [neighbourSum] at htie hcases
  simp only [← Int.natCast_mul]
  rcases hcases with ⟨hbits, hside⟩ | ⟨hbits, hside⟩ <;> rw [hbits] at htie ⊢ <;>
    rcases patternUnits_mul_cases hden num bits with hbelow | rfl | rfl | habove <;> omega

/-- A magnitude that is a finite pattern's is rounded to that pattern. -/
theorem nearestBits_exact {bits : Nat} (hfinite : bits < infBits) (hnum : num = patternUnits bits * den) :
    nearestBits num den = bits := by
  have hfloor : floorBits num den = bits := by
    refine Nat.le_antisymm (Nat.not_lt.1 fun hgt => ?_) ((le_floorBits_iff hden).2 (Nat.le_of_eq hnum.symm))
    have hlt := patternUnits_mul_lt hden hgt
    have hle := patternUnits_floorBits_le num den
    omega
  have hhigh := lt_patternUnits_floorBits_succ hden num
  rcases nearestBits_cases num den with ⟨hbits, -, -⟩ | ⟨-, hside, -⟩
  · rw [hbits, hfloor, Nat.min_eq_left (Nat.le_of_lt hfinite)]
  · rw [neighbourSum] at hside
    rw [hfloor] at hside hhigh
    omega

end

/-! ## Words -/

/-- A magnitude that is a finite word's, with that word's sign, is rounded to that word. -/
theorem roundNearest_exact {x : Word} {num den : Nat} (hx : Finite x) (hden : 0 < den) (hnum : num = fUnits x * den) :
    roundNearest (fSign x) num den = x := by
  rw [roundNearest, nearestBits_exact hden ((finite_iff_fMagBits x).1 hx) hnum, fPack_fSign_fMagBits]

/-- The nearest rounding of a magnitude of 24 significant bits is finite and has the same magnitude. -/
theorem nearestBits_of_significand {m e : Nat} (hm : m ≤ 2 ^ 24) (he : e ≤ 252) :
    nearestBits (m * 2 ^ e) 1 < infBits ∧ patternUnits (nearestBits (m * 2 ^ e) 1) = m * 2 ^ e := by
  obtain ⟨bits, hbits⟩ := exists_patternUnits_eq e m hm
  have hlt : bits < infBits := by
    rw [← Nat.not_le, ← patternUnits_le_iff, Nat.not_le, hbits, patternUnits_infBits]
    have hle := Nat.mul_le_mul hm (Nat.pow_le_pow_right (n := 2) (by decide) he)
    rw [show 277 = 25 + 252 from rfl, Nat.pow_add 2 25 252]
    omega
  rw [nearestBits_exact Nat.one_pos hlt (by rw [hbits, Nat.mul_one])]
  exact ⟨hlt, hbits⟩

/-- The conversion of a small integer is exact (R17). -/
theorem intToFloat_exact {k : Int} (hk : k.natAbs ≤ 2 ^ 24) :
    Finite (intToFloat k) ∧ fValue (intToFloat k) = k * 2 ^ 149 := by
  obtain ⟨hfinite, hunits⟩ := nearestBits_of_significand (e := 149) hk (by decide)
  refine ⟨finite_fPack _ hfinite, ?_⟩
  rw [intToFloat, roundNearest, fValue, fSign_fPack, fUnits_fPack _ (Nat.lt_trans hfinite infBits_lt), hunits]
  rcases Int.lt_or_le k 0 with hneg | hpos
  · simp only [hneg, decide_true, if_true]
    rw [Int.natCast_mul, show (k.natAbs : Int) = -k by omega, Int.neg_mul, Int.neg_neg]
    rfl
  · simp only [Int.not_lt.2 hpos, decide_false, Bool.false_eq_true, if_false]
    rw [Int.natCast_mul, show (k.natAbs : Int) = k by omega]
    rfl

end Sys2Proof.Machine
end

section
/-! SUPPORT. The rounding of R15 is correct. -/

open Sys2Proof Sys2Proof.Machine

/-- Settles O26: both roundings choose between the neighbours of the magnitude. -/
theorem roundingIsCorrect : Obligations.RoundingIsCorrect := by
  unfold Obligations.RoundingIsCorrect
  intro num den hden
  have hthreshold := overflowSum_mul den
  generalize (2 ^ 277 - 2 ^ 252) * den = threshold at hthreshold ⊢
  rw [truncatedBits_eq_min]
  refine ⟨fun hlt => ?_, fun hge => ?_, ?_, ?_, ?_, fun negative => ⟨rfl, rfl⟩⟩
  · have hbelow : 2 * num < overflowSum * den := by omega
    exact ⟨(nearestBits_cases_of_not_overflow hden hbelow).1, fun bits _ => nearestBits_nearest hden hbelow bits⟩
  · exact nearestBits_of_overflow hden (by omega)
  · exact Nat.lt_of_le_of_lt (Nat.min_le_right _ _) (by decide)
  · exact (le_floorBits_iff hden).1 (Nat.min_le_left _ _)
  · intro bits hfinite hle
    exact Nat.le_min.2 ⟨(le_floorBits_iff hden).2 hle, Nat.le_sub_one_of_lt hfinite⟩

end

section
/-! SUPPORT. The float tests of R17 by the order key of a pattern. -/

namespace Sys2Proof.Machine

theorem orderKey_lt_iff_fValue (x y : Word) : orderKey x < orderKey y ↔ fValue x < fValue y := by
  rw [← Int.not_le, ← Int.not_le, fValue_le_iff_orderKey]

theorem fle_iff_orderKey {x y : Word} (hx : isNaN x = false) (hy : isNaN y = false) :
    fle x y = true ↔ orderKey x ≤ orderKey y := by
  simp [fle, hx, hy]

theorem flt_iff_orderKey {x y : Word} (hx : isNaN x = false) (hy : isNaN y = false) :
    flt x y = true ↔ orderKey x < orderKey y := by
  simp [flt, hx, hy]

theorem fge_iff_orderKey {x y : Word} (hx : isNaN x = false) (hy : isNaN y = false) :
    fge x y = true ↔ orderKey y ≤ orderKey x :=
  fle_iff_orderKey hy hx

/-- A comparison with a NaN is false. -/
theorem compare_of_isNaN {x y : Word} (h : isNaN x = true ∨ isNaN y = true) :
    flt x y = false ∧ fle x y = false ∧ fge x y = false := by
  rcases h with h | h <;> simp [flt, fle, fge, h]

/-- The order keys of all patterns but NaNs lie between those of both infinities. -/
theorem orderKey_range {x : Word} (h : isNaN x = false) :
    -(infBits : Int) ≤ orderKey x ∧ orderKey x ≤ infBits := by
  rw [isNaN_eq_false_iff] at h
  rw [orderKey]
  split <;> omega

theorem orderKey_posInf : orderKey 0x7F800000#32 = infBits := by decide

theorem orderKey_negInf : orderKey 0xFF800000#32 = -(infBits : Int) := by decide

/-- The order key determines a pattern that is no zero. -/
theorem eq_iff_orderKey (x : Word) {y : Word} (hy : orderKey y ≠ 0) : x = y ↔ orderKey x = orderKey y := by
  refine ⟨fun h => h ▸ rfl, fun h => ?_⟩
  rw [orderKey, orderKey] at h
  rw [orderKey] at hy
  have hs : fSign x = fSign y := by
    cases hsx : fSign x <;> cases hsy : fSign y <;>
      simp only [hsx, hsy, if_true, if_false, Bool.false_eq_true, Bool.true_eq_false] at h hy ⊢ <;> omega
  rw [hs] at h
  exact eq_of_fSign_fMagBits hs (by split at h <;> omega)

theorem eq_posInf_iff (x : Word) : x = 0x7F800000#32 ↔ orderKey x = infBits :=
  eq_iff_orderKey x (by decide)

theorem eq_negInf_iff (x : Word) : x = 0xFF800000#32 ↔ orderKey x = -(infBits : Int) :=
  eq_iff_orderKey x (by decide)

/-- The positive infinity is the greatest value, and equal to itself alone. -/
theorem compare_posInf {y : Word} (hy : isNaN y = false) :
    fle y 0x7F800000#32 = true ∧ fge 0x7F800000#32 y = true ∧ flt 0x7F800000#32 y = false ∧
    (flt y 0x7F800000#32 = true ↔ y ≠ 0x7F800000#32) ∧ (fle 0x7F800000#32 y = true ↔ y = 0x7F800000#32) ∧
    (fge y 0x7F800000#32 = true ↔ y = 0x7F800000#32) := by
  have hinf : isNaN 0x7F800000#32 = false := by decide
  obtain ⟨-, hkey⟩ := orderKey_range hy
  rw [← Bool.not_eq_true, Ne, eq_posInf_iff, fle_iff_orderKey hy hinf, fge_iff_orderKey hinf hy,
    flt_iff_orderKey hinf hy, flt_iff_orderKey hy hinf, fle_iff_orderKey hinf hy, fge_iff_orderKey hy hinf,
    orderKey_posInf]
  omega

/-- The negative infinity is the least value, and equal to itself alone. -/
theorem compare_negInf {y : Word} (hy : isNaN y = false) :
    fle 0xFF800000#32 y = true ∧ fge y 0xFF800000#32 = true ∧ flt y 0xFF800000#32 = false ∧
    (flt 0xFF800000#32 y = true ↔ y ≠ 0xFF800000#32) ∧ (fle y 0xFF800000#32 = true ↔ y = 0xFF800000#32) ∧
    (fge 0xFF800000#32 y = true ↔ y = 0xFF800000#32) := by
  have hinf : isNaN 0xFF800000#32 = false := by decide
  obtain ⟨hkey, -⟩ := orderKey_range hy
  rw [← Bool.not_eq_true, Ne, eq_negInf_iff, fle_iff_orderKey hinf hy, fge_iff_orderKey hy hinf,
    flt_iff_orderKey hy hinf, flt_iff_orderKey hinf hy, fle_iff_orderKey hy hinf, fge_iff_orderKey hinf hy,
    orderKey_negInf]
  omega

/-- `|x|` clears the sign bit. -/
theorem fabs_eq_and (x : Word) : fabs x = x &&& 0x7FFFFFFF#32 := by
  have hmask : 0x7FFFFFFF#32 = BitVec.ofNat 32 (2 ^ 31 - 1) := rfl
  apply BitVec.eq_of_toNat_eq
  rw [fabs, BitVec.toNat_append, BitVec.toNat_and, ← fMagBits, fMagBits_eq_mod]
  simpa using (Nat.and_two_pow_sub_one_eq_mod x.toNat 31).symm

/-- A NaN and an infinity by their fields (R17). -/
theorem isNaN_iff_fields (x : Word) :
    isNaN x = true ↔ x.extractLsb' 23 8 = 0xFF#8 ∧ x.extractLsb' 0 23 ≠ 0#23 := by
  simp [isNaN, fExpField, fFracField, ← BitVec.toNat_inj]

theorem isInf_iff_fields (x : Word) :
    isInf x = true ↔ x.extractLsb' 23 8 = 0xFF#8 ∧ x.extractLsb' 0 23 = 0#23 := by
  simp [isInf, fExpField, fFracField, ← BitVec.toNat_inj]

end Sys2Proof.Machine

open Sys2Proof Sys2Proof.Machine

/-- Settles O27: the order key orders the finite patterns by value and puts the infinities outside. -/
theorem floatTests : Obligations.FloatTests := by
  unfold Obligations.FloatTests
  refine ⟨fun x => ⟨isNaN_iff_fields x, isInf_iff_fields x, fabs_eq_and x⟩,
    fun x y => ⟨fun ⟨hx, _⟩ ⟨hy, _⟩ => ?_, compare_of_isNaN⟩, fun y hy => ?_, fun k => intToFloat_exact⟩
  · rw [flt_iff_orderKey hx hy, fle_iff_orderKey hx hy, fge_iff_orderKey hx hy, orderKey_lt_iff_fValue,
      ← fValue_le_iff_orderKey, ← fValue_le_iff_orderKey]
    exact ⟨Iff.rfl, Iff.rfl, Iff.rfl⟩
  · obtain ⟨hle, hge, hlt, hltIff, hleIff, hgeIff⟩ := compare_posInf hy
    exact ⟨hle, hge, hlt, hltIff, hleIff, hgeIff, compare_negInf hy⟩

end

section
/-! SUPPORT. The four primitives of R16 by the class of their operands: NaN, infinity or finite. -/

namespace Sys2Proof.Machine

/-! ## Signed zeros and infinities -/

theorem fPack_bne_zero (a b : Bool) : fPack (a != b) 0 = if a = b then 0#32 else 0x80000000#32 := by
  cases a <;> cases b <;> rfl

theorem fInf_bne (a b : Bool) : fInf (a != b) = if a = b then 0x7F800000#32 else 0xFF800000#32 := by
  cases a <;> cases b <;> rfl

/-- Both signed zeros: the patterns of magnitude 0. -/
theorem eq_negZero_iff (x : Word) : x = 0x80000000#32 ↔ fSign x = true ∧ fMagBits x = 0 :=
  ⟨fun h => h ▸ ⟨rfl, rfl⟩, fun ⟨hs, hm⟩ => eq_of_fSign_fMagBits hs hm⟩

/-! ## Addition -/

theorem fadd_of_isNaN {x y : Word} (h : isNaN x = true ∨ isNaN y = true) : fadd x y = 0x7FC00000#32 := by
  rw [fadd, if_pos (by simpa using h), canonicalNaN]

theorem fadd_of_finite {x y : Word} (hx : Finite x) (hy : Finite y) :
    fadd x y = if fValue x + fValue y = 0 then fPack (fSign x && fSign y) 0
      else roundNearest (decide (fValue x + fValue y < 0)) (fValue x + fValue y).natAbs 1 := by
  simp [fadd, hx.1, hx.2, hy.1, hy.2]

theorem fadd_isInf_isInf {x y : Word} (hx : isInf x = true) (hy : isInf y = true) :
    fadd x y = if x = y then x else 0x7FC00000#32 := by
  simp only [fadd, isNaN_eq_false_of_isInf hx, isNaN_eq_false_of_isInf hy, hx, hy, eq_iff_fSign_of_isInf hx hy]
  cases fSign x <;> cases fSign y <;> rfl

theorem fadd_isInf_finite {x y : Word} (hx : isInf x = true) (hy : Finite y) : fadd x y = x := by
  simp [fadd, isNaN_eq_false_of_isInf hx, hx, hy.1, hy.2]

theorem fadd_finite_isInf {x y : Word} (hx : Finite x) (hy : isInf y = true) : fadd x y = y := by
  simp [fadd, isNaN_eq_false_of_isInf hy, hy, hx.1, hx.2]

/-- Two finite values that add up to 0 give -0 only as the sum of two -0 (R16). -/
theorem fPack_and_of_sum_zero {x y : Word} (h : fValue x + fValue y = 0) :
    fPack (fSign x && fSign y) 0 = if x = 0x80000000#32 ∧ y = 0x80000000#32 then 0x80000000#32 else 0#32 := by
  have hboth : (x = 0x80000000#32 ∧ y = 0x80000000#32) ↔ (fSign x && fSign y) = true := by
    rw [eq_negZero_iff, eq_negZero_iff, Bool.and_eq_true, ← fUnits_eq_zero_iff, ← fUnits_eq_zero_iff]
    refine ⟨fun ⟨⟨hx, _⟩, hy, _⟩ => ⟨hx, hy⟩, fun ⟨hx, hy⟩ => ?_⟩
    rw [fValue, fValue, if_pos hx, if_pos hy] at h
    exact ⟨⟨hx, by omega⟩, hy, by omega⟩
  simp only [hboth]
  cases fSign x && fSign y <;> rfl

/-! ## Multiplication -/

theorem fmul_of_isNaN {x y : Word} (h : isNaN x = true ∨ isNaN y = true) : fmul x y = 0x7FC00000#32 := by
  rw [fmul, if_pos (by simpa using h), canonicalNaN]

theorem fmul_of_finite {x y : Word} (hx : Finite x) (hy : Finite y) :
    fmul x y = roundNearest (fSign x != fSign y) (fUnits x * fUnits y) (2 ^ 149) := by
  simp [fmul, hx.1, hx.2, hy.1, hy.2]

theorem fmul_isInf {x y : Word} (hx : isInf x = true) (hy : isNaN y = false) :
    fmul x y = if fUnits y = 0 then 0x7FC00000#32
      else if fSign x = fSign y then 0x7F800000#32 else 0xFF800000#32 := by
  simp [fmul, isNaN_eq_false_of_isInf hx, hx, hy, fInf_bne, canonicalNaN]

theorem fmul_finite_isInf {x y : Word} (hx : Finite x) (hy : isInf y = true) : fmul x y = fmul y x := by
  rw [fmul_isInf hy hx.1]
  simp [fmul, isNaN_eq_false_of_isInf hy, hy, hx.1, hx.2, fInf_bne, canonicalNaN, @eq_comm _ (fSign x)]

theorem fmul_isInf_isInf {x y : Word} (hx : isInf x = true) (hy : isInf y = true) :
    fmul x y = if x = y then 0x7F800000#32 else 0xFF800000#32 := by
  rw [fmul_isInf hx (isNaN_eq_false_of_isInf hy), if_neg (fUnits_pos_of_isInf hy)]
  simp only [eq_iff_fSign_of_isInf hx hy]

/-! ## Division -/

theorem fdiv_of_isNaN {x y : Word} (h : isNaN x = true ∨ isNaN y = true) : fdiv x y = 0x7FC00000#32 := by
  rw [fdiv, if_pos (by simpa using h), canonicalNaN]

theorem fdiv_of_finite {x y : Word} (hx : Finite x) (hy : Finite y) (h : fUnits y ≠ 0) :
    fdiv x y = roundNearest (fSign x != fSign y) (fUnits x * 2 ^ 149) (fUnits y) := by
  simp [fdiv, hx.1, hx.2, hy.1, hy.2, h]

theorem fdiv_by_zero {x y : Word} (hx : Finite x) (hy : fUnits y = 0) :
    fdiv x y = if fUnits x = 0 then 0x7FC00000#32
      else if fSign x = fSign y then 0x7F800000#32 else 0xFF800000#32 := by
  obtain ⟨hyNaN, hyInf⟩ := finite_of_fUnits_eq_zero hy
  simp [fdiv, hx.1, hx.2, hyNaN, hyInf, hy, fInf_bne, canonicalNaN]

theorem fdiv_isInf_isInf {x y : Word} (hx : isInf x = true) (hy : isInf y = true) : fdiv x y = 0x7FC00000#32 := by
  simp [fdiv, isNaN_eq_false_of_isInf hx, isNaN_eq_false_of_isInf hy, hx, hy, canonicalNaN]

theorem fdiv_isInf_finite {x y : Word} (hx : isInf x = true) (hy : Finite y) :
    fdiv x y = if fSign x = fSign y then 0x7F800000#32 else 0xFF800000#32 := by
  simp [fdiv, isNaN_eq_false_of_isInf hx, hx, hy.1, hy.2, fInf_bne]

theorem fdiv_finite_isInf {x y : Word} (hx : Finite x) (hy : isInf y = true) :
    fdiv x y = if fSign x = fSign y then 0#32 else 0x80000000#32 := by
  simp [fdiv, isNaN_eq_false_of_isInf hy, hy, hx.1, hx.2, fPack_bne_zero]

/-! ## Commutativity -/

/-- Two operands hold a NaN, or each is finite or infinite. -/
theorem operand_classes (x y : Word) :
    (isNaN x = true ∨ isNaN y = true) ∨ (Finite x ∨ isInf x = true) ∧ (Finite y ∨ isInf y = true) := by
  cases hx : isNaN x
  · cases hy : isNaN y
    · exact .inr ⟨finite_or_isInf hx, finite_or_isInf hy⟩
    · exact .inl (.inr rfl)
  · exact .inl (.inl rfl)

theorem fadd_comm (x y : Word) : fadd x y = fadd y x := by
  rcases operand_classes x y with hNaN | ⟨hx | hx, hy | hy⟩
  · rw [fadd_of_isNaN hNaN, fadd_of_isNaN hNaN.symm]
  · rw [fadd_of_finite hx hy, fadd_of_finite hy hx, Int.add_comm, Bool.and_comm]
  · rw [fadd_finite_isInf hx hy, fadd_isInf_finite hy hx]
  · rw [fadd_isInf_finite hx hy, fadd_finite_isInf hy hx]
  · rw [fadd_isInf_isInf hx hy, fadd_isInf_isInf hy hx]
    by_cases heq : x = y
    · rw [if_pos heq, if_pos heq.symm, heq]
    · rw [if_neg heq, if_neg (Ne.symm heq)]

theorem fmul_comm (x y : Word) : fmul x y = fmul y x := by
  rcases operand_classes x y with hNaN | ⟨hx | hx, hy | hy⟩
  · rw [fmul_of_isNaN hNaN, fmul_of_isNaN hNaN.symm]
  · rw [fmul_of_finite hx hy, fmul_of_finite hy hx, Nat.mul_comm, bne_comm]
  · exact fmul_finite_isInf hx hy
  · exact (fmul_finite_isInf hy hx).symm
  · simp only [fmul_isInf_isInf hx hy, fmul_isInf_isInf hy hx, eq_comm]

/-! ## Neutral operands -/

theorem fUnits_one : fUnits 0x3F800000#32 = 2 ^ 149 := by decide

theorem fUnits_one_ne_zero : fUnits 0x3F800000#32 ≠ 0 := by decide

theorem finite_one : Finite 0x3F800000#32 := by decide

/-- -0 added leaves every pattern that is no NaN as it is. -/
theorem fadd_negZero {x : Word} (h : isNaN x = false) : fadd x 0x80000000#32 = x := by
  have hzero : Finite 0x80000000#32 := by decide
  have hvalue : fValue 0x80000000#32 = 0 := by decide
  rcases finite_or_isInf h with hx | hx
  · rw [fadd_of_finite hx hzero, hvalue, Int.add_zero]
    split
    next hxZero => rw [show fSign 0x80000000#32 = true from rfl, Bool.and_true, ← (fValue_eq_zero_iff x).1 hxZero,
      fPack_fSign_fMagBits]
    next hxNonzero =>
      rw [fValue_neg_iff hxNonzero, natAbs_fValue]
      exact roundNearest_exact hx Nat.one_pos (Nat.mul_one _).symm
  · exact fadd_isInf_finite hx hzero

/-- 1.0 multiplied leaves every pattern that is no NaN as it is. -/
theorem one_fmul {x : Word} (h : isNaN x = false) : fmul 0x3F800000#32 x = x := by
  have hsign : (fSign 0x3F800000#32 != fSign x) = fSign x := Bool.false_bne _
  rcases finite_or_isInf h with hx | hx
  · rw [fmul_of_finite finite_one hx, hsign, fUnits_one]
    exact roundNearest_exact hx (Nat.two_pow_pos _) (Nat.mul_comm _ _)
  · rw [fmul_finite_isInf finite_one hx, fmul_isInf hx finite_one.1, if_neg fUnits_one_ne_zero, ← fInf_bne,
      bne_comm, hsign, fInf_fSign_of_isInf hx]

/-- A pattern that is no NaN divided by 1.0 stays as it is. -/
theorem fdiv_one {x : Word} (h : isNaN x = false) : fdiv x 0x3F800000#32 = x := by
  have hsign : (fSign x != fSign 0x3F800000#32) = fSign x := Bool.bne_false _
  rcases finite_or_isInf h with hx | hx
  · rw [fdiv_of_finite hx finite_one fUnits_one_ne_zero, hsign, fUnits_one]
    exact roundNearest_exact hx (Nat.two_pow_pos _) rfl
  · rw [fdiv_isInf_finite hx finite_one, ← fInf_bne, hsign, fInf_fSign_of_isInf hx]

end Sys2Proof.Machine

open Sys2Proof Sys2Proof.Machine

/-- Settles O25: by the classes of the operands, the neutral ones by the exactness of the rounding. -/
theorem floatIdentities : Obligations.FloatIdentities := by
  unfold Obligations.FloatIdentities
  exact ⟨fun x y => ⟨fadd_comm x y, fmul_comm x y⟩,
    fun x h => ⟨fadd_negZero h, fadd_negZero h, one_fmul h, fdiv_one h⟩⟩

/-- Settles O24: one lemma per primitive and class of operands. -/
theorem floatPrimitives : Obligations.FloatPrimitives := by
  unfold Obligations.FloatPrimitives
  intro x y
  refine ⟨fun hx hy hsum => ?_, fun hx hy hsum => ?_, rfl, fmul_of_finite, fdiv_of_finite, fun hx hne hy => ?_,
    fun h => ?_, fun hx hy => ?_, fun hx hy => ?_, fun hx hy => ?_⟩
  · rw [fadd_of_finite hx hy, if_neg hsum]
  · rw [fadd_of_finite hx hy, if_pos hsum, fPack_and_of_sum_zero hsum]
  · exact (fdiv_by_zero hx hy).trans (if_neg hne)
  · exact ⟨fadd_of_isNaN h, fadd_of_isNaN (by rwa [isNaN_fNegate]), fmul_of_isNaN h, fdiv_of_isNaN h⟩
  · exact ⟨fadd_isInf_isInf hx hy, fmul_isInf_isInf hx hy, fdiv_isInf_isInf hx hy⟩
  · have hreverse : fdiv y x = if fSign x = fSign y then 0#32 else 0x80000000#32 := by
      rw [fdiv_finite_isInf hy hx]
      simp only [eq_comm]
    exact ⟨fadd_isInf_finite hx hy, fadd_finite_isInf hy hx, fmul_isInf hx hy.1, fmul_comm y x,
      fdiv_isInf_finite hx hy, hreverse⟩
  · exact (fdiv_by_zero (finite_of_fUnits_eq_zero hx) hy).trans (if_pos hx)

end

section
/-! SUPPORT. All that an instruction can do, said once for all 49: a fault, the effect of `HALT`, or a change of
registers, `PC` and data memory that keeps the canonical form of data memory and lists only words that exist. -/

namespace Sys2Proof.Machine

/-! ## Data memory across an instruction -/

/-- A change of a memory of `words` words that keeps its canonical form and lists no byte beyond it (R70). -/
structure KeepsMemory (words : Nat) (m m' : Memory) : Prop where
  wf : Memory.wf m = true → Memory.wf m' = true
  within : Memory.within m words = true → Memory.within m' words = true

section
variable {words : Nat} {m m' : Memory}

theorem KeepsMemory.rfl : KeepsMemory words m m := ⟨id, id⟩

theorem KeepsMemory.setWord (h : KeepsMemory words m m') {j : Nat} (w : Word) (hj : j < words) :
    KeepsMemory words m (memSetWord m' j w) :=
  ⟨fun hw => wf_setWord j w (h.wf hw), fun hb => within_setWord j w (h.within hb) hj⟩

theorem KeepsMemory.ramp (g : Nat → Word) (last : Word) {t n : Nat} (hn : n ≠ 0) (hb : t + n ≤ words) :
    KeepsMemory words m (rampMemory g last t n m) :=
  ⟨wf_rampMemory g last t n, fun h => within_rampMemory g last t n (Nat.pos_of_ne_zero hn) h hb⟩

theorem KeepsMemory.filterLoop {H : Type} (kernel : Word → H → Word × H) (gain : Option Word) (xs : Nat) (start : H)
    {ys n : Nat} (hb : ys + n ≤ words) :
    KeepsMemory words m (filterLoop kernel gain xs ys n (m, start)).1 :=
  ⟨fun h => wf_filterLoop kernel gain xs ys n h, fun h => within_filterLoop kernel gain xs ys n h hb⟩

/-- A DF-I filter writes its target and its history, inside the regions it checked (R220, R221). -/
theorem KeepsMemory.filterI (macc : Bool) {q xs ys n : Nat} (hq : q + 10 ≤ words) (hy : ys + n ≤ words) :
    KeepsMemory words m (filterI macc q xs ys n m) :=
  ((((KeepsMemory.filterLoop _ _ _ _ hy).setWord _ (by omega)).setWord _ (by omega)).setWord _ (by omega)).setWord _
    (by omega)

/-- A DF-II filter writes its target and its history, inside the regions it checked (R220, R221). -/
theorem KeepsMemory.filterII (macc : Bool) {q xs ys n : Nat} (hq : q + 10 ≤ words) (hy : ys + n ≤ words) :
    KeepsMemory words m (filterII macc q xs ys n m) :=
  ((KeepsMemory.filterLoop _ _ _ _ hy).setWord _ (by omega)).setWord _ (by omega)

/-- An all-pole filter writes its target and its history, inside the regions it checked (R220, R221). -/
theorem KeepsMemory.filterAP (macc : Bool) {q xs ys n : Nat} (hq : q + 4 ≤ words) (hy : ys + n ≤ words) :
    KeepsMemory words m (filterAP macc q xs ys n m) :=
  (KeepsMemory.filterLoop _ _ _ _ hy).setWord _ (by omega)

end

/-! ## The effects of instructions -/

/-- From `s` only registers, `PC` and data memory changed, and data memory stayed a memory that exists. -/
inductive DataStep (s : State) : State → Prop where
  | mk (r : Vector Word 15) (f : Vector Word 16) (p : Vector DWord 8) (pc : Word) (dmem : Memory)
      (kept : KeepsMemory s.cfg.dmemWords s.dmem dmem) :
      DataStep s { s with r := r, f := f, p := p, pc := pc, dmem := dmem }

section
variable (s : State)

theorem dataStep_goTo (target : Word) : DataStep s (s.goTo target) := .mk _ _ _ _ _ .rfl

theorem dataStep_writeR (a : RReg) (v : Word) : DataStep s (s.writeR a v).advance := .mk _ _ _ _ _ .rfl

theorem dataStep_writeF (a : FReg) (v : Word) : DataStep s (s.writeF a v).advance := .mk _ _ _ _ _ .rfl

theorem dataStep_writeP (a : PReg) (v : DWord) : DataStep s (s.writeP a v).advance := .mk _ _ _ _ _ .rfl

theorem dataStep_setDmem {dmem : Memory} (h : KeepsMemory s.cfg.dmemWords s.dmem dmem) :
    DataStep s { s with dmem := dmem }.advance := .mk _ _ _ _ _ h

end

/-- All that a cycle of the sequencer can answer from `s`; the effect of `HALT` only where `mayHalt` holds. -/
inductive CycleOutcome (mayHalt : Prop) (s : State) : Result → Prop where
  | fault (record : FaultRecord) : CycleOutcome mayHalt s (.next (takeFault record s))
  | halt (allowed : mayHalt) : CycleOutcome mayHalt s (.next (haltSequencer s).advance)
  | data {t : State} (change : DataStep s t) : CycleOutcome mayHalt s (.next t)

section
variable {mayHalt : Prop} {s : State}

theorem cycleOutcome_attempt {checks : List (Option FaultRecord)} {effect : State → State}
    (h : firstFault checks = none → DataStep s (effect s)) : CycleOutcome mayHalt s (attempt checks effect s) := by
  obtain ⟨record, -, he⟩ | ⟨hn, he⟩ := attempt_cases checks effect s
  · exact he ▸ .fault record
  · exact he ▸ .data (h hn)

/-- An access of `count` data words under its range check (R149). -/
theorem cycleOutcome_access {base count : Nat} {effect : State → State}
    (h : base + count ≤ s.cfg.dmemWords → DataStep s (effect s)) :
    CycleOutcome mayHalt s (attempt [rangeCheck s base count] effect s) :=
  cycleOutcome_attempt fun hn => h (rangeCheck_eq_none.1 (firstFault_eq_none.1 hn _ (by simp)))

theorem cycleOutcome_vectorOp {count : Nat} {checks : List (Option FaultRecord)} {effect : State → State}
    (h : count ≠ 0 → firstFault checks = none → DataStep s (effect s)) :
    CycleOutcome mayHalt s (vectorOp count checks effect s) := by
  obtain ⟨-, he⟩ | ⟨record, -, he⟩ | ⟨hc, hn, he⟩ := vectorOp_cases count checks effect s
  · exact he ▸ .data (dataStep_goTo s _)
  · exact he ▸ .fault record
  · exact he ▸ .data (h hc hn)

/-- A ramp under its range check, the first of its checks (R200). -/
theorem cycleOutcome_ramp {base count : Nat} {checks : List (Option FaultRecord)} (g : Nat → Word) (last : Word)
    {effect : State → State}
    (he : effect s = { s with dmem := rampMemory g last base count s.dmem }.advance) :
    CycleOutcome mayHalt s (vectorOp count (rangeCheck s base count :: checks) effect s) :=
  cycleOutcome_vectorOp fun hc hn => he ▸ dataStep_setDmem s
    (.ramp g last hc (rangeCheck_eq_none.1 (firstFault_eq_none.1 hn _ (by simp))))

/-- A filter whose writes stay inside its descriptor and target regions (R221). -/
theorem cycleOutcome_runFilter {words : Nat} {filter : Nat → Nat → Nat → Nat → Memory → Memory} (a b c d : RReg)
    (h : ∀ {q xs ys n : Nat}, q + words ≤ s.cfg.dmemWords → ys + n ≤ s.cfg.dmemWords →
      KeepsMemory s.cfg.dmemWords s.dmem (filter q xs ys n s.dmem)) :
    CycleOutcome mayHalt s (runFilter words filter a b c d s) :=
  cycleOutcome_vectorOp fun _ hn =>
    have passed := firstFault_eq_none.1 hn
    dataStep_setDmem s (h (rangeCheck_eq_none.1 (passed _ (by simp [filterChecks])))
      (rangeCheck_eq_none.1 (passed _ (by simp [filterChecks]))))

theorem CycleOutcome.mono {mayHalt' : Prop} {o : Result} (h : CycleOutcome mayHalt s o) (imp : mayHalt → mayHalt') :
    CycleOutcome mayHalt' s o := by
  cases h with
  | fault record => exact .fault record
  | halt allowed => exact .halt (imp allowed)
  | data change => exact .data change

end

/-! ## Every instruction -/

/-- What each instruction can do; the effect of `HALT` is that of `HALT` alone. -/
theorem exec_outcome (i : Instr) (s : State) : CycleOutcome (i = .halt) s (exec i s) := by
  cases i with
  | nop => exact .data (dataStep_goTo s _)
  | halt => exact .halt rfl
  | li | lui | addi | ori | add | sub | and | or | xor | slt | sltu => exact .data (dataStep_writeR s _ _)
  | j => exact .data (dataStep_goTo s _)
  | beqz => exact .data (by split <;> exact dataStep_goTo s _)
  | bnez => exact .data (by split <;> exact dataStep_goTo s _)
  | lw => rw [exec, execLw]; exact cycleOutcome_access fun _ => dataStep_writeR s _ _
  | flw => rw [exec, execFlw]; exact cycleOutcome_access fun _ => dataStep_writeF s _ _
  | plw => rw [exec, execPlw]; exact cycleOutcome_access fun _ => dataStep_writeP s _ _
  | sw => rw [exec, execSw]; exact cycleOutcome_access fun h => dataStep_setDmem s (KeepsMemory.rfl.setWord _ h)
  | fsw => rw [exec, execFsw]; exact cycleOutcome_access fun h => dataStep_setDmem s (KeepsMemory.rfl.setWord _ h)
  | psw =>
    rw [exec, execPsw]
    exact cycleOutcome_access fun h => dataStep_setDmem s ((KeepsMemory.rfl.setWord _ (by omega)).setWord _ h)
  | pldd => rw [exec, execPldd]; exact cycleOutcome_attempt fun _ => dataStep_writeP s _ _
  | pfromf => rw [exec, execPfromf]; exact cycleOutcome_attempt fun _ => dataStep_writeP s _ _
  | pwrap => rw [exec, execPwrap]; exact cycleOutcome_attempt fun _ => dataStep_writeP s _ _
  | wlk => rw [exec, execWlk]; exact cycleOutcome_attempt fun _ => dataStep_writeF s _ _
  | fadd | fsub | fmul | fmvrf | fcvtsw | pfrac => exact .data (dataStep_writeF s _ _)
  | fmvfr | pint | pge => exact .data (dataStep_writeR s _ _)
  | padd | pneg | psubi | pmask | prefl | pmov => exact .data (dataStep_writeP s _ _)
  | vrampa | vrampm => exact cycleOutcome_ramp _ _ rfl
  | iir2di | iir2diMacc => exact cycleOutcome_runFilter _ _ _ _ (.filterI _)
  | iir2dii | iir2diiMacc => exact cycleOutcome_runFilter _ _ _ _ (.filterII _)
  | iir1ap | iir1apMacc => exact cycleOutcome_runFilter _ _ _ _ (.filterAP _)

/-- What a cycle of the sequencer can do: the fetch, the decode and the instruction add only faults (R130). -/
theorem instructionStep_outcome (s : State) : CycleOutcome True s (instructionStep s) := by
  unfold instructionStep
  split
  · split
    · exact (exec_outcome _ s).mono fun _ => trivial
    · exact .fault _
  · exact .fault _

section
variable {mayHalt : Prop} {s : State}

/-- A cycle answers a next state (R130). -/
theorem CycleOutcome.next {o : Result} (h : CycleOutcome mayHalt s o) : ∃ t, o = .next t := by
  cases h <;> exact ⟨_, rfl⟩

/-- A cycle reaches neither command memory, the interrupt enables, the parameters nor the other agents (R36). -/
theorem CycleOutcome.outsideUntouched {t : State} (h : CycleOutcome mayHalt s (.next t)) : OutsideUntouched s t := by
  cases h with
  | fault record => exact ⟨rfl, rfl, rfl, rfl, rfl, rfl, rfl⟩
  | halt allowed => exact ⟨rfl, rfl, rfl, rfl, rfl, rfl, rfl⟩
  | data change => cases change; exact ⟨rfl, rfl, rfl, rfl, rfl, rfl, rfl⟩

/-- A cycle that takes no fault and is no `HALT` touches no control state (R34). -/
theorem CycleOutcome.sameControl {t : State} (h : CycleOutcome mayHalt s (.next t)) (hh : ¬ mayHalt)
    (hf : t.faulted = false) : SameControl s t := by
  cases h with
  | fault record => exact absurd hf (by simp)
  | halt allowed => exact absurd allowed hh
  | data change => cases change; exact ⟨rfl, rfl, rfl, rfl, rfl, rfl, rfl, rfl, rfl, rfl, rfl, rfl, rfl⟩

/-- No cycle starts the sequencer. -/
theorem CycleOutcome.run_eq_false {t : State} (h : CycleOutcome mayHalt s (.next t)) (hr : s.run = false) :
    t.run = false := by
  cases h with
  | fault record => rfl
  | halt allowed => rfl
  | data change => cases change; exact hr

end

end Sys2Proof.Machine

open Sys2Proof Sys2Proof.Machine

/-- Settles O10: by what an instruction can do. -/
theorem instructionsReachNothingOutside : Obligations.InstructionsReachNothingOutside := by
  unfold Obligations.InstructionsReachNothingOutside
  intro i s t h
  exact (h ▸ exec_outcome i s).outsideUntouched

/-- Settles O11: by what an instruction can do, a fault and the effect of `HALT` being excluded. -/
theorem onlyHaltAndFaultsTouchStatus : Obligations.OnlyHaltAndFaultsTouchStatus := by
  unfold Obligations.OnlyHaltAndFaultsTouchStatus
  intro i s t _ h hf hi
  exact (h ▸ exec_outcome i s).sameControl hi hf

end

section
/-! SUPPORT. The host window (R44, R45): where an offset leads, which accesses are served, and what an access that
is served answers. -/

namespace Sys2Proof.Machine

/-! ## Where an offset leads (R44) -/

section
variable (cfg : Params)

theorem hostLoc_intReg (k : RReg) : hostLoc cfg (0x100 + 4 * k.toNat) = .intReg k := by
  have hk := k.isLt
  simp (disch := omega) only [hostLoc, if_neg, if_pos, show (0x100 + 4 * k.toNat - 0x100) / 4 = k.toNat by omega,
    BitVec.ofNat_toNat, BitVec.setWidth_eq]

theorem hostLoc_floatReg (k : FReg) : hostLoc cfg (0x140 + 4 * k.toNat) = .floatReg k := by
  have hk := k.isLt
  simp (disch := omega) only [hostLoc, if_neg, if_pos, show (0x140 + 4 * k.toNat - 0x140) / 4 = k.toNat by omega,
    BitVec.ofNat_toNat, BitVec.setWidth_eq]

theorem hostLoc_phaseLow (k : PReg) : hostLoc cfg (0x180 + 8 * k.toNat) = .phaseLow k := by
  have hk := k.isLt
  simp (disch := omega) only [hostLoc, if_neg, if_pos, show (0x180 + 8 * k.toNat - 0x180) / 8 = k.toNat by omega,
    BitVec.ofNat_toNat, BitVec.setWidth_eq]

theorem hostLoc_phaseHigh (k : PReg) : hostLoc cfg (0x184 + 8 * k.toNat) = .phaseHigh k := by
  have hk := k.isLt
  simp (disch := omega) only [hostLoc, if_neg, if_pos, show (0x184 + 8 * k.toNat - 0x180) / 8 = k.toNat by omega,
    BitVec.ofNat_toNat, BitVec.setWidth_eq]

variable {cfg}

theorem hostLoc_imem {j : Nat} (hj : j < cfg.imemWords) : hostLoc cfg (0x10000 + 4 * j) = .imem j := by
  simp (disch := omega) only [hostLoc, if_neg, if_pos, show (0x10000 + 4 * j - 0x10000) / 4 = j by omega]

/-- Command memory ends below data memory (R7, R44). -/
theorem imem_below_dmem (legal : cfg.legal = true) : 0x10000 + 4 * cfg.imemWords ≤ 0x4000000 := by
  simp only [Params.legal, Bool.and_eq_true, decide_eq_true_eq] at legal
  omega

theorem hostLoc_dmem (legal : cfg.legal = true) {j : Nat} (hj : j < cfg.dmemWords) :
    hostLoc cfg (0x4000000 + 4 * j) = .dmem j := by
  have hbelow := imem_below_dmem legal
  simp (disch := omega) only [hostLoc, if_neg, if_pos, show (0x4000000 + 4 * j - 0x4000000) / 4 = j by omega]

theorem hostLoc_reserved (legal : cfg.legal = true) {offset : Nat}
    (h : (0x30 ≤ offset ∧ offset < 0x100) ∨ (0x1C0 ≤ offset ∧ offset < 0x10000) ∨
      (0x10000 + 4 * cfg.imemWords ≤ offset ∧ offset < 0x4000000) ∨ 0x4000000 + 4 * cfg.dmemWords ≤ offset) :
    hostLoc cfg offset = .reserved := by
  have hbelow := imem_below_dmem legal
  rcases h with h | h | h | h <;> simp (disch := omega) only [hostLoc, if_neg, if_pos]

/-- The window shows only the words that exist (R70). -/
theorem hostLoc_imem_lt {offset j : Nat} (h : hostLoc cfg offset = .imem j) : j < cfg.imemWords := by
  unfold hostLoc csrAt at h
  split at h
  · split at h <;> simp at h
  · grind

theorem hostLoc_dmem_lt {offset j : Nat} (h : hostLoc cfg offset = .dmem j) : j < cfg.dmemWords := by
  unfold hostLoc csrAt at h
  split at h
  · split at h <;> simp at h
  · grind

/-- The CSRs that the sequencer owns while it runs: `PCR` and the fault record (R45). -/
theorem openWhileRunning_csrAt {offset : Nat} (ha : offset % 4 = 0) (hlt : offset < 0x30) :
    openWhileRunning (csrAt offset) = false ↔ offset = 0x0C ∨ (0x10 ≤ offset ∧ offset < 0x1C) := by
  obtain ⟨q, rfl⟩ := Nat.dvd_of_mod_eq_zero ha
  have hcsrs : ∀ q < 12, openWhileRunning (csrAt (4 * q)) = false ↔
      4 * q = 0x0C ∨ (0x10 ≤ 4 * q ∧ 4 * q < 0x1C) := by decide
  exact hcsrs q (by omega)

/-- What lies at an aligned offset is closed to the host while running exactly where R45 says so. -/
theorem openWhileRunning_hostLoc (legal : cfg.legal = true) {offset : Nat} (ha : offset % 4 = 0) :
    openWhileRunning (hostLoc cfg offset) = false ↔ OwnedWhileRunning cfg offset := by
  have hbelow := imem_below_dmem legal
  unfold OwnedWhileRunning
  by_cases hcsr : offset < 0x30
  · rw [hostLoc, if_pos hcsr, openWhileRunning_csrAt ha hcsr]
    omega
  · rw [hostLoc, if_neg hcsr]
    repeat' split
    all_goals simp only [openWhileRunning, true_iff, Bool.true_eq_false, false_iff]
    all_goals omega

end

/-! ## Which accesses are served (R45) -/

section
variable {s : State} {width offset : Nat} {action : HostLoc → Result} {loc : HostLoc}

/-- An access that is no aligned 32-bit one is refused. -/
theorem hostAccess_misformed (h : width ≠ 4 ∨ offset % 4 ≠ 0) :
    hostAccess width offset action s = .refused .hostAccessForm := by
  have : hostAccessWell width offset = false := by rcases h with h | h <;> simp [hostAccessWell, h]
  simp [hostAccess, this]

/-- While running an access to what the sequencer owns is refused. -/
theorem hostAccess_owned (ha : offset % 4 = 0) (hr : s.run = true)
    (ho : openWhileRunning (hostLoc s.cfg offset) = false) :
    hostAccess 4 offset action s = .refused .hostAccessWhileRunning := by
  simp [hostAccess, hostAccessWell, ha, hr, ho]

/-- Every other access is served. -/
theorem hostAccess_served (ha : offset % 4 = 0) (hl : hostLoc s.cfg offset = loc)
    (hs : s.run = false ∨ openWhileRunning loc = true) : hostAccess 4 offset action s = action loc := by
  subst hl
  rcases hs with hs | hs <;> simp [hostAccess, hostAccessWell, ha, hs]

/-- An access that answers a next state was served. -/
theorem hostAccess_eq_next {t : State} (h : hostAccess width offset action s = .next t) :
    (s.run = true → openWhileRunning (hostLoc s.cfg offset) = true) ∧ action (hostLoc s.cfg offset) = .next t := by
  unfold hostAccess at h
  split at h
  · cases h
  · split at h
    · cases h
    · next hopen => exact ⟨by simpa using hopen, h⟩

theorem hostRead_served (ha : offset % 4 = 0) (hl : hostLoc s.cfg offset = loc)
    (hs : s.run = false ∨ openWhileRunning loc = true) :
    hostRead 4 offset s = .next { s with hostData := hostReadWord s loc } :=
  hostAccess_served ha hl hs

theorem hostWrite_served (v : Word) (ha : offset % 4 = 0) (hl : hostLoc s.cfg offset = loc)
    (hs : s.run = false ∨ openWhileRunning loc = true) : hostWrite 4 offset v s = hostWriteWord s v loc :=
  hostAccess_served ha hl hs

end

/-- `CTRL` may be written at all times (R38, R45). -/
theorem hostWrite_ctrl (v : Word) (s : State) : hostWrite 4 4 v s = writeCtrl v s :=
  hostWrite_served v rfl rfl (.inr rfl)

/-- `STATUS` may be read at all times (R39, R45). -/
theorem hostRead_status (s : State) : hostRead 4 8 s = .next { s with hostData := statusWord s } :=
  hostRead_served rfl rfl (.inr rfl)

end Sys2Proof.Machine

end

section
/-! SUPPORT. What the places of the host window read as and what a write of each leaves (R37 to R44). -/

namespace Sys2Proof.Machine

/-! ## Bits of the status word and the interrupt registers -/

/-- The interrupt output, event by event (R43). -/
theorem irqLevel_eq (s : State) :
    irqLevel s = (s.irqstat.getLsbD 0 && s.irqen.getLsbD 0 || s.irqstat.getLsbD 1 && s.irqen.getLsbD 1) := by
  have h : ∀ x y : BitVec 2, ((x &&& y) != 0#2) = (x.getLsbD 0 && y.getLsbD 0 || x.getLsbD 1 && y.getLsbD 1) := by
    decide
  exact h _ _

/-- Four bits below 28 zeros, bit by bit. -/
theorem statusBits (irq halted faulted run : Bool) :
    let status := 0#28 ++ BitVec.ofBool irq ++ BitVec.ofBool halted ++ BitVec.ofBool faulted ++ BitVec.ofBool run
    status.getLsbD 0 = run ∧ status.getLsbD 1 = faulted ∧ status.getLsbD 2 = halted ∧ status.getLsbD 3 = irq ∧
      status.extractLsb' 4 28 = 0#28 := by
  revert irq halted faulted run
  decide

/-- `STATUS` reads RUN, FAULT, HALTED and IRQ in bits 0 to 3 (R39, R43). -/
theorem statusWord_bits (s : State) :
    (statusWord s).getLsbD 0 = s.run ∧ (statusWord s).getLsbD 1 = s.faulted ∧ (statusWord s).getLsbD 2 = s.halted ∧
      (statusWord s).getLsbD 3 = irqLevel s ∧ (statusWord s).extractLsb' 4 28 = 0#28 :=
  statusBits _ _ _ _

/-- A write of `IRQSTAT` clears the bits that it has as 1 (R42). -/
theorem getLsbD_clear (irqstat : BitVec 2) (v : Word) {i : Nat} (hi : i < 2) :
    (irqstat &&& ~~~(v.extractLsb' 0 2)).getLsbD i = (irqstat.getLsbD i && !v.getLsbD i) := by
  simp [hi]

/-! ## Bytes of a written word -/

/-- The bytes of a written word (R72). -/
theorem memByte_setWord_same (m : Memory) (j : Nat) (w : Word) {i : Nat} (hi : i < 4) :
    memByte (memSetWord m j w) (4 * j + i) = w.extractLsb' (8 * i) 8 := by
  obtain rfl | rfl | rfl | rfl : i = 0 ∨ i = 1 ∨ i = 2 ∨ i = 3 := by omega
  all_goals simp [memByte_setWord]

/-- A byte of another word reads as before. -/
theorem memByte_setWord_div (m : Memory) (j : Nat) (w : Word) {b : Nat} (h : b / 4 ≠ j) :
    memByte (memSetWord m j w) b = memByte m b :=
  memByte_setWord_other m j w b (by omega)

/-! ## Writes -/

/-- A cycle from a write of `CTRL.STEP`, or nothing (R38). -/
theorem stepCommand_cases (s : State) :
    (s.run = false ∧ s.faulted = false ∧ stepCommand s = instructionStep { s with halted := false }) ∨
    ((s.run = true ∨ s.faulted = true) ∧ stepCommand s = .next s) := by
  unfold stepCommand
  cases s.run <;> cases s.faulted <;> simp

theorem stepCommand_next (s : State) : ∃ t, stepCommand s = .next t := by
  obtain ⟨-, -, he⟩ | ⟨-, he⟩ := stepCommand_cases s
  · exact he ▸ (instructionStep_outcome _).next
  · exact ⟨s, he⟩

theorem ctrlActions_next (v : Word) (s : State) : ∃ t, ctrlActions v s = .next t := by
  unfold ctrlActions
  simp only
  split
  · exact stepCommand_next _
  · exact ⟨_, rfl⟩

theorem writeCtrl_next (v : Word) (s : State) : ∃ t, writeCtrl v s = .next t := by
  obtain ⟨-, -, he⟩ | ⟨-, he⟩ := writeCtrl_cases v s
  · exact ⟨_, he⟩
  · exact he ▸ ctrlActions_next v s

/-- Every write that is served answers a next state. -/
theorem hostWriteWord_next (s : State) (v : Word) (loc : HostLoc) : ∃ t, hostWriteWord s v loc = .next t := by
  cases loc with
  | ctrl => exact writeCtrl_next v s
  | _ => exact ⟨_, rfl⟩

/-- A write of `R[0]` leaves the state as it was (R31). -/
theorem writeR_zero (s : State) (v : Word) : s.writeR 0#4 v = s := rfl

end Sys2Proof.Machine

open Sys2Proof Sys2Proof.Machine

/-- Settles O54: each offset leads to its place, and each write is a write of one register or memory word. -/
theorem hostWindow : Obligations.HostWindow := by
  unfold Obligations.HostWindow
  intro s legal hr reads
  have served : ∀ {offset : Nat} {loc : HostLoc}, offset % 4 = 0 → hostLoc s.cfg offset = loc →
      reads offset (hostReadWord s loc) ∧ ∀ v, hostWrite 4 offset v s = hostWriteWord s v loc :=
    fun ha hl => ⟨hostRead_served ha hl (.inl hr), fun v => hostWrite_served v ha hl (.inl hr)⟩
  have intReg := fun k => served (by omega) (hostLoc_intReg s.cfg k)
  have floatReg := fun k => served (by omega) (hostLoc_floatReg s.cfg k)
  have phaseLow := fun k => served (by omega) (hostLoc_phaseLow s.cfg k)
  have phaseHigh := fun k => served (by omega) (hostLoc_phaseHigh s.cfg k)
  have imem := fun {j} (hj : j < s.cfg.imemWords) => served (by omega) (hostLoc_imem hj)
  have dmem := fun {j} (hj : j < s.cfg.dmemWords) => served (by omega) (hostLoc_dmem legal hj)
  refine ⟨fun k => (intReg k).1, fun k => (floatReg k).1, fun k => ⟨(phaseLow k).1, (phaseHigh k).1⟩,
    fun j hj => (imem hj).1, fun j hj => (dmem hj).1, fun offset ha h => served ha (hostLoc_reserved legal h),
    fun v => ⟨fun k => ?_, fun k => ?_, fun k => ?_, fun k => ?_, fun j hj => ?_, fun j hj => ?_⟩⟩
  · exact ⟨_, (intReg k).2 v, readR_writeR_same s k v, fun m hm => readR_writeR_other s v hm, rfl⟩
  · exact ⟨_, (floatReg k).2 v, readF_writeF_same s k v, fun m hm => readF_writeF_other s v hm, rfl⟩
  · exact ⟨_, (phaseLow k).2 v, readP_writeP_same s k _, fun m hm => readP_writeP_other s _ hm, rfl⟩
  · exact ⟨_, (phaseHigh k).2 v, readP_writeP_same s k _, fun m hm => readP_writeP_other s _ hm, rfl⟩
  · exact ⟨_, (imem hj).2 v, fun i hi => memByte_setWord_same s.imem j v hi,
      fun byte hb => memByte_setWord_div s.imem j v hb, rfl⟩
  · exact ⟨_, (dmem hj).2 v, fun i hi => memByte_setWord_same s.dmem j v hi,
      fun byte hb => memByte_setWord_div s.dmem j v hb, rfl⟩

/-- Settles O55: what is closed while running is what the sequencer owns, and every access that is served answers. -/
theorem hostDuties : Obligations.HostDuties := by
  unfold Obligations.HostDuties
  intro s width offset v legal owned
  refine ⟨fun h => ⟨hostAccess_misformed h, hostAccess_misformed h⟩, fun ha hr ho => ?_, fun ha h => ?_⟩
  · have closed := (openWhileRunning_hostLoc legal ha).2 ho
    exact ⟨hostAccess_owned ha hr closed, hostAccess_owned ha hr closed⟩
  · have hs : s.run = false ∨ openWhileRunning (hostLoc s.cfg offset) = true :=
      h.imp_right fun ho => by rwa [← Bool.not_eq_false, openWhileRunning_hostLoc legal ha]
    refine ⟨⟨_, hostRead_served ha rfl hs⟩, ?_⟩
    rw [hostWrite_served v ha rfl hs]
    exact hostWriteWord_next s v _

/-- Settles O15: `R[0]` has no storage (R31). -/
theorem hardwiredZero : Obligations.HardwiredZero := by
  unfold Obligations.HardwiredZero
  exact fun s => ⟨readR_zero s, fun v k => by rw [writeR_zero],
    fun hr => hostRead_served rfl (hostLoc_intReg s.cfg 0#4) (.inl hr),
    fun hr v => hostWrite_served v rfl (hostLoc_intReg s.cfg 0#4) (.inl hr), fun i t _ => readR_zero t⟩

/-- Settles O57: each offset leads to its register, those open while running being served at all times. -/
theorem statusAndInterruptRegisters : Obligations.StatusAndInterruptRegisters := by
  unfold Obligations.StatusAndInterruptRegisters
  intro s v reads
  obtain ⟨hrun, hfaulted, hhalted, hirq, hzero⟩ := statusWord_bits s
  have hcause : 0#24 ++ s.cause = s.cause.setWidth 32 := (BitVec.setWidth_eq_append (by decide)).symm
  have hirqen : 0#30 ++ s.irqen = s.irqen.setWidth 32 := (BitVec.setWidth_eq_append (by decide)).symm
  have hirqstat : 0#30 ++ s.irqstat = s.irqstat.setWidth 32 := (BitVec.setWidth_eq_append (by decide)).symm
  refine ⟨hostRead_served rfl rfl (.inr rfl),
    ⟨statusWord s, hostRead_status s, hrun, hfaulted, hhalted, hirq.trans (irqLevel_eq s), hzero⟩,
    fun hr => ⟨hostRead_served rfl rfl (.inl hr), hostWrite_served v rfl rfl (.inl hr)⟩,
    fun hr => ⟨hcause ▸ hostRead_served rfl rfl (.inl hr), hostRead_served rfl rfl (.inl hr),
      hostRead_served rfl rfl (.inl hr)⟩,
    hirqen ▸ hostRead_served rfl rfl (.inr rfl), hostWrite_served v rfl rfl (.inr rfl),
    hirqstat ▸ hostRead_served rfl rfl (.inr rfl),
    ⟨_, hostWrite_served v rfl rfl (.inr rfl), rfl, fun i hi => getLsbD_clear s.irqstat v hi⟩,
    hostRead_served rfl rfl (.inr rfl), hostRead_served rfl rfl (.inr rfl), hostRead_served rfl rfl (.inr rfl),
    fun offset h => ?_, fun hr offset h => ?_⟩
  · simp only [List.mem_cons, List.not_mem_nil, or_false] at h
    rcases h with rfl | rfl | rfl | rfl | rfl
    all_goals exact hostWrite_served v rfl rfl (.inr rfl)
  · simp only [List.mem_cons, List.not_mem_nil, or_false] at h
    rcases h with rfl | rfl | rfl
    all_goals exact hostWrite_served v rfl rfl (.inl hr)

end

section
/-! SUPPORT. The actions of a write of `CTRL` one by one (R38), and a STOP that waits for the instruction in progress
(R130, R345; log 9, log 22). -/

namespace Sys2Proof.Machine

/-! ## The actions of `CTRL` -/

section
variable {s : State}

theorem startSequencer_of_stopped (hr : s.run = false) (hf : s.faulted = false) :
    startSequencer s = { s with run := true, halted := false } := by
  simp [startSequencer, hr, hf]

theorem startSequencer_ignored (h : s.run = true ∨ s.faulted = true) : startSequencer s = s := by
  rcases h with h | h <;> simp [startSequencer, h]

theorem stepCommand_of_stopped (hr : s.run = false) (hf : s.faulted = false) :
    stepCommand s = instructionStep { s with halted := false } := by
  simp [stepCommand, hr, hf]

theorem stepCommand_ignored (h : s.run = true ∨ s.faulted = true) : stepCommand s = .next s := by
  rcases h with h | h <;> simp [stepCommand, h]

theorem clearFault_of_stopped (hr : s.run = false) :
    clearFault s = { s with faulted := false, cause := 0#8, fpc := 0#32, finfo := 0#32 } := by
  simp [clearFault, hr]

theorem clearFault_ignored (hr : s.run = true) : clearFault s = s := by simp [clearFault, hr]

theorem stopSequencer_ignored (hr : s.run = false) : stopSequencer s = s := by cases s; cases hr; rfl

/-- A write of STOP while running waits, and nothing else changes. -/
theorem writeCtrl_running {v : Word} (hv : v.getLsbD 3 = true) (hr : s.run = true) :
    writeCtrl v s = .next { s with pendingCtrl := s.pendingCtrl ++ [v] } := by
  simp [writeCtrl, hv, hr]

/-- A write without STOP, or to a stopped sequencer, acts at once. -/
theorem writeCtrl_at_once {v : Word} (h : s.run = false ∨ v.getLsbD 3 = false) : writeCtrl v s = ctrlActions v s := by
  obtain ⟨hv, hr, -⟩ | ⟨-, he⟩ := writeCtrl_cases v s
  · rw [hv, hr] at h; simp at h
  · exact he

variable (v : Word) (s)

/-- STOP has no action of its own where it finds the sequencer stopped. -/
theorem ctrlActions_and_seven : ctrlActions (v &&& 7#32) s = ctrlActions v s := by simp [ctrlActions]

/-! ## One bit of a write at a time -/

theorem writeCtrl_clear_bit :
    writeCtrl (v &&& 4#32) s = .next (if v.getLsbD 2 then clearFault s else s) := by
  simp [writeCtrl, ctrlActions]

theorem writeCtrl_start_bit :
    writeCtrl (v &&& 1#32) s = .next (if v.getLsbD 0 then startSequencer s else s) := by
  simp [writeCtrl, ctrlActions]

theorem writeCtrl_step_bit :
    writeCtrl (v &&& 2#32) s = if v.getLsbD 1 then stepCommand s else .next s := by
  simp [writeCtrl, ctrlActions]

variable {v s}

theorem writeCtrl_stop_bit (h : s.run = false ∨ v.getLsbD 3 = false) : writeCtrl (v &&& 8#32) s = .next s := by
  rw [writeCtrl_at_once (h.imp_right fun hv => by rw [BitVec.getLsbD_and, hv, Bool.false_and])]
  simp [ctrlActions]

/-- A write that acts at once acts as its bits written one by one, STOP, CLRFAULT, START, STEP (R38). -/
theorem writeCtrl_in_order (h : s.run = false ∨ v.getLsbD 3 = false) :
    writeCtrl v s = andThen (writeCtrl (v &&& 8#32) s) fun s => andThen (writeCtrl (v &&& 4#32) s) fun s =>
      andThen (writeCtrl (v &&& 1#32) s) fun s => writeCtrl (v &&& 2#32) s := by
  rw [writeCtrl_at_once h, writeCtrl_stop_bit h]
  simp only [andThen_next, writeCtrl_clear_bit, writeCtrl_start_bit, writeCtrl_step_bit]
  rfl

/-! ## The end of a STOP that waited -/

/-- The first write whose STOP waited stops the sequencer, then acts as a write to the stopped sequencer. -/
theorem finishStops_cons_write (rest : List Word) (t : State) :
    finishStops (v :: rest) t = andThen (hostWrite 4 4 v { t with run := false }) (finishStops rest) := by
  rw [finishStops_cons, hostWrite_ctrl, writeCtrl_stopped rfl]
  rfl

/-- STOP alone leaves `RUN` = 0 and nothing else changed. -/
theorem finishStops_stop (t : State) : finishStops [8#32] t = .next { t with run := false } := rfl

theorem finishStops_singleton (t : State) : finishStops [v] t = ctrlActions v { t with run := false } := by
  rw [finishStops_cons]
  obtain ⟨u, hu⟩ := ctrlActions_next v (stopSequencer t)
  rw [hu, andThen_next]
  exact hu.symm

/-- A STOP written while running acts after the cycle that the sequencer's next turn performs. -/
theorem stop_then_turn (hv : v.getLsbD 3 = true) (hr : s.run = true) (hp : s.pendingCtrl = []) {t : State}
    (ht : instructionStep s = .next t) : andThen (writeCtrl v s) sequencerTurn = finishStops [v] t := by
  have hs : { s with pendingCtrl := [] } = s := by cases s; cases hp; rfl
  have hturn : sequencerTurn { s with pendingCtrl := s.pendingCtrl ++ [v] } =
      andThen (instructionStep { s with pendingCtrl := [] }) (finishStops (s.pendingCtrl ++ [v])) :=
    sequencerTurn_pending hr
  rw [writeCtrl_running hv hr, andThen_next, hturn, hs, ht, hp, andThen_next, List.nil_append]

/-- The cycle with no STOP pending, then the pending writes: what a turn of a running sequencer answers. -/
theorem step_of_sequencer (legal : s.cfg.legal = true) (hr : s.run = true)
    (h : s.turns = [] ∨ s.turns.head? = some .sequencer) :
    step s = andThen (instructionStep { s with turns := s.turns.tail, pendingCtrl := [] })
      (finishStops s.pendingCtrl) := by
  have hturn : nextTurn s = sequencerTurn { s with turns := s.turns.tail } := by
    cases s with
    | mk r f p pc run faulted halted cause fpc finfo irqen irqstat imem dmem cfg pendingCtrl turns hostData freeIndex =>
      cases turns with
      | nil => rfl
      | cons turn rest =>
        obtain rfl : turn = .sequencer := by simpa using h
        rfl
  rw [step, if_pos legal, hturn]
  exact sequencerTurn_pending hr

theorem step_of_stopTakesEffect (legal : s.cfg.legal = true) {later : List Turn}
    (h : s.turns = .stopTakesEffect :: later) :
    step s = finishStops s.pendingCtrl { s with turns := later, pendingCtrl := [] } := by
  rw [step, if_pos legal, nextTurn, h]
  rfl

end

end Sys2Proof.Machine

open Sys2Proof Sys2Proof.Machine

/-- Settles O56: the actions of the bits one by one; a STOP that waits acts after one whole cycle. -/
theorem controlRegister : Obligations.ControlRegister := by
  unfold Obligations.ControlRegister
  intro s ctrl
  have hctrl : ∀ v s, ctrl v s = writeCtrl v s := hostWrite_ctrl
  have hstart : ctrl 1#32 s = .next (startSequencer s) := hctrl _ _
  have hstep : ctrl 2#32 s = stepCommand s := hctrl _ _
  have hclear : ctrl 4#32 s = .next (clearFault s) := hctrl _ _
  refine ⟨hostRead_served rfl rfl (.inr rfl), fun hr hf => ?_, fun h => ?_, fun hr hf => ?_, fun h => ?_,
    fun hr => ?_, fun hr => ?_, fun hr => ?_, fun hr hp => ?_, fun hr => ?_, fun v h => ?_⟩
  · rw [hstart, startSequencer_of_stopped hr hf]
  · rw [hstart, startSequencer_ignored h]
  · rw [hstep, stepCommand_of_stopped hr hf]
    have outcome := instructionStep_outcome { s with halted := false }
    obtain ⟨t, ht⟩ := outcome.next
    exact ⟨rfl, t, ht, (ht ▸ outcome).run_eq_false hr⟩
  · rw [hstep, stepCommand_ignored h]
  · rw [hclear, clearFault_of_stopped hr]
  · rw [hclear, clearFault_ignored hr]
  · rw [hctrl, writeCtrl_running rfl hr]
  · obtain ⟨t, ht⟩ := (instructionStep_outcome s).next
    have hturn := fun {v : Word} (hv : v.getLsbD 3 = true) => stop_then_turn hv hr hp ht
    refine ⟨t, ht, (hctrl _ _) ▸ hturn rfl, fun v hv => ?_⟩
    rw [hctrl, hctrl, hturn hv, finishStops_singleton, writeCtrl_stopped rfl, ctrlActions_and_seven]
  · rw [hctrl, writeCtrl_stopped hr, ctrlActions_stop]
  · simp only [hctrl]
    exact writeCtrl_in_order h

/-- Settles O60: a STOP that waits leaves RUN at 1, and acts after the cycle that the sequencer's next turn performs. -/
theorem stopFinishesInstruction : Obligations.StopFinishesInstruction := by
  unfold Obligations.StopFinishesInstruction
  intro s legal hr
  refine ⟨fun v hv => ?_, fun h => ?_, fun later h => ?_⟩
  · refine ⟨_, (hostWrite_ctrl v s).trans (writeCtrl_running hv hr), rfl,
      ⟨_, hostRead_status _, (statusWord_bits _).1.trans hr⟩, fun offset w ha ho => ?_⟩
    have closed := (openWhileRunning_hostLoc legal ha).2 ho
    exact ⟨hostAccess_owned ha hr closed, hostAccess_owned ha hr closed⟩
  · obtain ⟨t, ht⟩ := (instructionStep_outcome { s with turns := s.turns.tail, pendingCtrl := [] }).next
    have hturn : step s = finishStops s.pendingCtrl t := by
      rw [step_of_sequencer legal hr h, ht, andThen_next]
    refine ⟨t, ht, fun hp => ?_, fun hp hrun => ?_, fun v rest hp => ?_⟩ <;> rw [hturn, hp]
    · exact finishStops_stop t
    · exact (finishStops_stop t).trans (congrArg _ (stopSequencer_ignored hrun))
    · exact finishStops_cons_write rest t
  · have hturn := step_of_stopTakesEffect legal h
    refine ⟨fun hp => ?_, fun hp => ?_, fun v rest hp => ?_⟩ <;> rw [hturn, hp]
    · rfl
    · exact finishStops_stop _
    · exact finishStops_cons_write rest _

end

section
/-! SUPPORT. The invariant `Inv` across every turn: a cycle of the sequencer, a write of `CTRL`, a STOP that waited, a
host access and reset. -/

namespace Sys2Proof.Machine

/-! ## Parts of a turn -/

section
variable {s t : State}

/-- A change of data memory that keeps what a memory is. -/
theorem MemoryOk.of_keepsMemory (h : MemoryOk s) (hi : t.imem = s.imem) (hc : t.cfg = s.cfg)
    (hd : KeepsMemory s.cfg.dmemWords s.dmem t.dmem) : MemoryOk t := by
  obtain ⟨iwf, dwf, iwithin, dwithin⟩ := h
  rw [MemoryOk, hi, hc]
  exact ⟨iwf, hd.wf dwf, iwithin, hd.within dwithin⟩

theorem DataStep.inv (h : DataStep s t) (hi : Inv s) : Inv t := by
  obtain ⟨r, f, p, pc, dmem, kept⟩ := h
  obtain ⟨legal, mem, status, pending, record⟩ := hi
  exact ⟨legal, mem.of_keepsMemory rfl rfl kept, status, pending, record⟩

/-- A running sequencer has neither FAULT nor HALTED (R39). -/
theorem Inv.status_of_running (hi : Inv s) (hr : s.run = true) : s.faulted = false ∧ s.halted = false := by
  obtain ⟨-, -, ⟨running, -⟩, -⟩ := hi
  exact running hr

/-- No write of `CTRL` waits at a stopped sequencer. -/
theorem Inv.pendingCtrl_of_stopped (hi : Inv s) (hr : s.run = false) : s.pendingCtrl = [] := by
  obtain ⟨-, -, -, ⟨waits, -⟩, -⟩ := hi
  exact Decidable.byContradiction fun h => Bool.false_ne_true (hr.symm.trans (waits h))

theorem Inv.dropPending (hi : Inv s) : Inv { s with pendingCtrl := [] } := by
  obtain ⟨legal, mem, status, -, record⟩ := hi
  exact ⟨legal, mem, status, ⟨fun h => absurd rfl h, nofun⟩, record⟩

theorem Inv.addPending (hi : Inv s) {v : Word} (hv : v.getLsbD 3 = true) (hr : s.run = true) :
    Inv { s with pendingCtrl := s.pendingCtrl ++ [v] } := by
  obtain ⟨legal, mem, status, ⟨-, stops⟩, record⟩ := hi
  refine ⟨legal, mem, status, ⟨fun _ => hr, fun w hw => ?_⟩, record⟩
  rcases List.mem_append.1 hw with hw | hw
  · exact stops w hw
  · exact List.mem_singleton.1 hw ▸ hv

/-- With nothing pending, RUN may fall (R38). -/
theorem Inv.stop (hi : Inv s) (hp : s.pendingCtrl = []) : Inv (stopSequencer s) := by
  obtain ⟨legal, mem, ⟨-, status⟩, ⟨-, stops⟩, record⟩ := hi
  exact ⟨legal, mem, ⟨nofun, status⟩, ⟨fun h => absurd hp h, stops⟩, record⟩

theorem Inv.clearFault (hi : Inv s) : Inv (clearFault s) := by
  cases hr : s.run with
  | true => rwa [clearFault_ignored hr]
  | false =>
    rw [clearFault_of_stopped hr]
    obtain ⟨legal, mem, -, pending, -⟩ := hi
    exact ⟨legal, mem, ⟨fun h => absurd (hr.symm.trans h) Bool.false_ne_true, nofun⟩, pending,
      ⟨fun _ => ⟨rfl, rfl, rfl⟩, nofun⟩⟩

/-- What START leaves with FAULT = 0 (R38). -/
theorem Inv.clearHalted (hi : Inv s) (hf : s.faulted = false) : Inv { s with halted := false } := by
  obtain ⟨legal, mem, -, pending, record⟩ := hi
  exact ⟨legal, mem, ⟨fun _ => ⟨hf, rfl⟩, fun _ => rfl⟩, pending, record⟩

theorem Inv.startSequencer (hi : Inv s) : Inv (startSequencer s) := by
  cases hr : s.run with
  | true => rwa [startSequencer_ignored (.inl hr)]
  | false =>
    cases hf : s.faulted with
    | true => rwa [startSequencer_ignored (.inr hf)]
    | false =>
      rw [startSequencer_of_stopped hr hf]
      obtain ⟨legal, mem, -, ⟨-, stops⟩, record⟩ := hi
      exact ⟨legal, mem, ⟨fun _ => ⟨hf, rfl⟩, fun _ => rfl⟩, ⟨fun _ => rfl, stops⟩, record⟩

/-- What a cycle needs to keep the invariant: no fault, no HALTED, no STOP pending. -/
structure CycleReady (s : State) : Prop where
  inv : Inv s
  faulted : s.faulted = false
  halted : s.halted = false
  pendingCtrl : s.pendingCtrl = []

theorem CycleReady.takeFault (h : CycleReady s) (record : FaultRecord) : Inv (takeFault record s) := by
  obtain ⟨legal, mem, -, ⟨-, stops⟩, -⟩ := h.inv
  exact ⟨legal, mem, ⟨nofun, fun _ => h.halted⟩, ⟨fun hp => absurd h.pendingCtrl hp, stops⟩,
    ⟨nofun, fun _ => causeCode_range record.cause⟩⟩

theorem CycleReady.halt (h : CycleReady s) : Inv (haltSequencer s).advance := by
  obtain ⟨legal, mem, -, ⟨-, stops⟩, record⟩ := h.inv
  exact ⟨legal, mem, ⟨nofun, fun hf => absurd (h.faulted.symm.trans hf) Bool.false_ne_true⟩,
    ⟨fun hp => absurd h.pendingCtrl hp, stops⟩, record⟩

/-- A cycle keeps the invariant and leaves no STOP pending. -/
theorem CycleReady.cycle (h : CycleReady s) (ht : instructionStep s = .next t) : Inv t ∧ t.pendingCtrl = [] := by
  have outcome := ht ▸ instructionStep_outcome s
  obtain ⟨-, -, -, hpending, -⟩ := outcome.outsideUntouched
  refine ⟨?_, hpending.trans h.pendingCtrl⟩
  cases outcome with
  | fault record => exact h.takeFault record
  | halt => exact h.halt
  | data change => exact change.inv h.inv

/-! ## Writes of `CTRL` and the sequencer's turn -/

/-- STEP keeps the invariant and what is pending: nothing, where it performs a cycle (R38). -/
theorem Inv.stepCommand (hi : Inv s) (h : stepCommand s = .next t) : Inv t ∧ t.pendingCtrl = s.pendingCtrl := by
  obtain ⟨hr, hf, he⟩ | ⟨-, he⟩ := stepCommand_cases s
  · have hp := hi.pendingCtrl_of_stopped hr
    have ready : CycleReady { s with halted := false } := ⟨hi.clearHalted hf, hf, rfl, hp⟩
    rw [hp]
    exact ready.cycle (he ▸ h)
  · cases he.symm.trans h
    exact ⟨hi, rfl⟩

/-- What CLRFAULT and START of one write leave for its STEP. -/
def clearAndStart (v : Word) (s : State) : State :=
  let cleared := if v.getLsbD 2 then clearFault s else s
  if v.getLsbD 0 then startSequencer cleared else cleared

theorem ctrlActions_eq (v : Word) (s : State) :
    ctrlActions v s = if v.getLsbD 1 then stepCommand (clearAndStart v s) else .next (clearAndStart v s) := rfl

@[simp] theorem clearAndStart_pendingCtrl (v : Word) (s : State) : (clearAndStart v s).pendingCtrl = s.pendingCtrl := by
  unfold clearAndStart
  dsimp only
  repeat' split
  all_goals simp

theorem Inv.clearAndStart (hi : Inv s) (v : Word) : Inv (clearAndStart v s) := by
  have cleared : Inv (if v.getLsbD 2 then Machine.clearFault s else s) := by
    split
    · exact hi.clearFault
    · exact hi
  unfold Machine.clearAndStart
  dsimp only
  split
  · exact cleared.startSequencer
  · exact cleared

theorem Inv.ctrlActions (hi : Inv s) {v : Word} (h : ctrlActions v s = .next t) :
    Inv t ∧ t.pendingCtrl = s.pendingCtrl := by
  rw [← clearAndStart_pendingCtrl v s]
  rw [ctrlActions_eq] at h
  split at h
  · exact (hi.clearAndStart v).stepCommand h
  · cases h
    exact ⟨hi.clearAndStart v, rfl⟩

theorem inv_finishStops {l : List Word} (hi : Inv s) (hp : s.pendingCtrl = []) (h : finishStops l s = .next t) :
    Inv t := by
  induction l generalizing s with
  | nil => cases h; exact hi
  | cons v rest ih =>
    obtain ⟨u, hu, hrest⟩ := andThen_eq_next.1 h
    obtain ⟨hinv, hpending⟩ := (hi.stop hp).ctrlActions hu
    exact ih hinv (hpending.trans hp) hrest

theorem Inv.takePendingStops (hi : Inv s) (h : takePendingStops s = .next t) : Inv t :=
  inv_finishStops hi.dropPending rfl h

theorem Inv.sequencerTurn (hi : Inv s) (h : sequencerTurn s = .next t) : Inv t := by
  cases hr : s.run with
  | false =>
    cases (sequencerTurn_stopped hr).symm.trans h
    exact hi
  | true =>
    obtain ⟨u, hu, hrest⟩ := andThen_eq_next.1 ((sequencerTurn_pending hr).symm.trans h)
    obtain ⟨hf, hh⟩ := hi.status_of_running hr
    have ready : CycleReady { s with pendingCtrl := [] } := ⟨hi.dropPending, hf, hh, rfl⟩
    obtain ⟨hinv, hpending⟩ := ready.cycle hu
    exact inv_finishStops hinv hpending hrest

theorem Inv.writeCtrl (hi : Inv s) {v : Word} (h : writeCtrl v s = .next t) : Inv t := by
  obtain ⟨hv, hr, he⟩ | ⟨-, he⟩ := writeCtrl_cases v s
  · cases he.symm.trans h
    exact hi.addPending hv hr
  · exact (hi.ctrlActions (he.symm.trans h)).1

/-! ## Host accesses -/

theorem Inv.setImemWord (hi : Inv s) {j : Nat} (v : Word) (hj : j < s.cfg.imemWords) : Inv (s.setImemWord j v) := by
  obtain ⟨legal, ⟨iwf, dwf, iwithin, dwithin⟩, status, pending, record⟩ := hi
  exact ⟨legal, ⟨wf_setWord j v iwf, dwf, within_setWord j v iwithin hj, dwithin⟩, status, pending, record⟩

theorem Inv.setDmemWord (hi : Inv s) {j : Nat} (v : Word) (hj : j < s.cfg.dmemWords) : Inv (s.setDmemWord j v) :=
  DataStep.inv (.mk _ _ _ _ _ (KeepsMemory.rfl.setWord v hj)) hi

theorem Inv.hostRead (hi : Inv s) {width offset : Nat} (h : hostRead width offset s = .next t) : Inv t := by
  cases (hostAccess_eq_next h).2
  exact hi

/-- A host write keeps the invariant: it reaches only words that exist, and `CTRL` by its actions. -/
theorem Inv.hostWrite (hi : Inv s) {width offset : Nat} {v : Word} (h : hostWrite width offset v s = .next t) :
    Inv t := by
  obtain ⟨-, hw⟩ := hostAccess_eq_next h
  cases hl : hostLoc s.cfg offset with
  | ctrl => exact hi.writeCtrl (hl ▸ hw)
  | imem j =>
    rw [hl] at hw; cases hw
    exact hi.setImemWord v (hostLoc_imem_lt hl)
  | dmem j =>
    rw [hl] at hw; cases hw
    exact hi.setDmemWord v (hostLoc_dmem_lt hl)
  | _ => rw [hl] at hw; cases hw; exact hi

/-! ## Reset -/

theorem Inv.resetMachine (hi : Inv s) : Inv (resetMachine s) := by
  obtain ⟨legal, mem, -, -, -⟩ := hi
  exact ⟨legal, mem, ⟨nofun, nofun⟩, ⟨fun h => absurd rfl h, nofun⟩,
    ⟨fun _ => ⟨rfl, rfl, rfl⟩, nofun⟩⟩

end

/-- Words left unspecified that exist keep data memory a memory. -/
theorem keepsMemory_leaveUnspecified {words : Nat} {m : Memory} {l : List Nat} (hl : ∀ j ∈ l, j < words) {s : State}
    (h : KeepsMemory words m s.dmem) : KeepsMemory words m (leaveUnspecified l s).dmem := by
  induction l generalizing s with
  | nil => exact h
  | cons j rest ih =>
    exact ih (fun k hk => hl k (List.mem_cons_of_mem _ hk)) (h.setWord _ (hl j List.mem_cons_self))

/-- An attempt that ends without a fault passed its checks. -/
theorem attempt_passed {checks : List (Option FaultRecord)} {effect : State → State} {s t : State}
    (h : attempt checks effect s = .next t) (hf : t.faulted = false) : ∀ c ∈ checks, c = none := by
  obtain ⟨record, -, he⟩ | ⟨hn, -⟩ := attempt_cases checks effect s
  · cases he.symm.trans h
    cases hf
  · exact firstFault_eq_none.1 hn

/-- An access that ends without a fault is in range (R149). -/
theorem access_passed {base count : Nat} {effect : State → State} {s t : State}
    (h : attempt [rangeCheck s base count] effect s = .next t) (hf : t.faulted = false) :
    base + count ≤ s.cfg.dmemWords :=
  rangeCheck_eq_none.1 (attempt_passed h hf _ List.mem_cons_self)

theorem vectorOp_passed {count : Nat} {checks : List (Option FaultRecord)} {effect : State → State} {s t : State}
    (h : vectorOp count checks effect s = .next t) (hc : count ≠ 0) (hf : t.faulted = false) :
    ∀ c ∈ checks, c = none := by
  rw [vectorOp, if_neg hc] at h
  exact attempt_passed h hf

/-- A filter that ends without a fault and with a count has its descriptor and target in range (R221). -/
theorem runFilter_passed {words : Nat} {filter : Nat → Nat → Nat → Nat → Memory → Memory} {a b c d : RReg}
    {s t : State} (h : runFilter words filter a b c d s = .next t) (hc : s.unsignedR d ≠ 0) (hf : t.faulted = false) :
    s.unsignedR a + words ≤ s.cfg.dmemWords ∧ s.unsignedR c + s.unsignedR d ≤ s.cfg.dmemWords :=
  have passed := vectorOp_passed h hc hf
  ⟨rangeCheck_eq_none.1 (passed _ (by simp [filterChecks])), rangeCheck_eq_none.1 (passed _ (by simp [filterChecks]))⟩

/-- An instruction counts as storing only where it ends without a fault. -/
theorem exec_of_storesHere {i : Instr} {s : State} (h : storesHere i s = true) :
    ∃ t, exec i { s with faulted := false } = .next t ∧ t.faulted = false := by
  obtain ⟨t, ht⟩ := (exec_outcome i { s with faulted := false }).next
  refine ⟨t, ht, ?_⟩
  unfold storesHere at h
  rw [ht] at h
  -- every arm for a next state asks that FAULT is 0 in it
  grind

/-- The target of a filter that ends without a fault, and the history in its descriptor, lie in data memory. -/
theorem filter_target_lt {words history count : Nat} {filter : Nat → Nat → Nat → Nat → Memory → Memory}
    {a b c d : RReg} {s t : State} (h : runFilter words filter a b c d { s with faulted := false } = .next t)
    (hc : s.unsignedR d ≠ 0) (hf : t.faulted = false) (hh : history + count ≤ words) {j : Nat}
    (hj : j ∈ wordsFrom (s.unsignedR c) (s.unsignedR d) ++ wordsFrom (s.unsignedR a + history) count) :
    j < s.cfg.dmemWords := by
  have passed : s.unsignedR a + words ≤ s.cfg.dmemWords ∧ s.unsignedR c + s.unsignedR d ≤ s.cfg.dmemWords :=
    runFilter_passed (s := { s with faulted := false }) h hc hf
  rw [List.mem_append, mem_wordsFrom, mem_wordsFrom] at hj
  omega

/-- Where an instruction stores, its target region lies in data memory (R132, R340). -/
theorem targetWords_lt {i : Instr} {s : State} (h : storesHere i s = true) {j : Nat} (hj : j ∈ targetWords i s) :
    j < s.cfg.dmemWords := by
  obtain ⟨t, ht, hf⟩ := exec_of_storesHere h
  cases i with
  | sw a b imm =>
    rw [exec, execSw] at ht
    exact List.mem_singleton.1 hj ▸ access_passed ht hf
  | fsw a b imm =>
    rw [exec, execFsw] at ht
    exact List.mem_singleton.1 hj ▸ access_passed ht hf
  | psw a b imm =>
    rw [exec, execPsw] at ht
    have hr : effAddr s b imm + 2 ≤ s.cfg.dmemWords := access_passed (s := { s with faulted := false }) ht hf
    simp only [targetWords, List.mem_cons, List.not_mem_nil, or_false] at hj
    omega
  | vrampa a b c d | vrampm a b c d =>
    obtain ⟨-, hc⟩ : t.faulted = false ∧ s.unsignedR d ≠ 0 := by simpa [storesHere, ht] using h
    have hr : s.unsignedR a + s.unsignedR d ≤ s.cfg.dmemWords :=
      rangeCheck_eq_none.1 (vectorOp_passed ht hc hf _ List.mem_cons_self)
    rw [targetWords, mem_wordsFrom] at hj
    omega
  | iir2di a b c d | iir2diMacc a b c d | iir2dii a b c d | iir2diiMacc a b c d | iir1ap a b c d
  | iir1apMacc a b c d =>
    obtain ⟨-, hc⟩ : t.faulted = false ∧ s.unsignedR d ≠ 0 := by simpa [storesHere, ht] using h
    exact filter_target_lt ht hc hf (by decide) hj
  | _ => cases hj

/-- The words that an abandoned instruction leaves unspecified exist (R340). -/
theorem abandonedWords_lt {s : State} {j : Nat} (hj : j ∈ abandonedWords s) : j < s.cfg.dmemWords := by
  unfold abandonedWords at hj
  split at hj
  · split at hj
    · split at hj
      · next hstores => exact targetWords_lt hstores hj
      · cases hj
    · cases hj
  · cases hj

section
variable {s t : State}

theorem Inv.leaveUnspecified (hi : Inv s) {l : List Nat} (hl : ∀ j ∈ l, j < s.cfg.dmemWords) :
    Inv (leaveUnspecified l s) := by
  have kept := keepsMemory_leaveUnspecified hl (KeepsMemory.rfl (m := s.dmem))
  rw [leaveUnspecified_frame]
  obtain ⟨legal, mem, status, pending, record⟩ := hi
  exact ⟨legal, mem.of_keepsMemory rfl rfl kept, status, pending, record⟩

theorem Inv.resetDuringInstruction (hi : Inv s) : Inv (resetDuringInstruction s) :=
  (hi.leaveUnspecified fun _ hj => abandonedWords_lt hj).resetMachine

/-! ## Turns -/

/-- Every turn of every agent keeps the invariant. -/
theorem Inv.takeTurn (hi : Inv s) {turn : Turn} (h : takeTurn turn s = .next t) : Inv t := by
  cases turn with
  | sequencer => exact hi.sequencerTurn h
  | hostRead width offset => exact hi.hostRead h
  | hostWrite width offset v => exact hi.hostWrite h
  | stopTakesEffect => exact hi.takePendingStops h
  | reset => cases h; exact hi.resetMachine
  | resetDuringInstruction => cases h; exact hi.resetDuringInstruction

theorem Inv.nextTurn (hi : Inv s) (h : nextTurn s = .next t) : Inv t := by
  unfold Machine.nextTurn at h
  split at h
  · exact hi.sequencerTurn h
  · next rest _ => exact Inv.takeTurn (s := { s with turns := rest }) hi h

end

end Sys2Proof.Machine

open Sys2Proof Sys2Proof.Machine

/-- Settles O12: a step is a turn, and every turn keeps the invariant. -/
theorem invKeptByStep : Obligations.InvKeptByStep := by
  unfold Obligations.InvKeptByStep
  intro s t hi h
  have ⟨legal, _⟩ := hi
  rw [step, if_pos legal] at h
  exact hi.nextTurn h

end

section
/-! SUPPORT. The cycle of R130 as `CycleFrom` says it, and a step that takes a listed turn. -/

namespace Sys2Proof.Machine

/-- The four fetched bytes are decoded as the word at `PC` (R72, R130). -/
theorem decodeBytes_fetchBytes (s : State) : decodeBytes (fetchBytes s) = decode (s.imemWord s.pc.toNat) := rfl

/-- A cycle of the sequencer is the cycle of R130: the fetch check, the decode, then the instruction. -/
theorem cycleFrom_instructionStep (s : State) : CycleFrom s (instructionStep s) := by
  unfold CycleFrom instructionStep
  rw [decodeBytes_fetchBytes]
  refine ⟨fun outside => ?_, fun inside => ⟨fun i hi => ?_, fun why hw => ?_⟩⟩
  · rw [if_neg (by simpa [fetchable] using outside)]
    exact ⟨_, rfl, takeFault_faultTaken _ s⟩
  · rw [if_pos (by simpa [fetchable] using inside), hi]
  · rw [if_pos (by simpa [fetchable] using inside), hw]
    exact ⟨_, rfl, takeFault_faultTaken _ s⟩

/-- With legal parameters a step takes the first listed turn (R82; log 4). -/
theorem step_of_turn {s : State} {turn : Turn} {rest : List Turn} (legal : s.cfg.legal = true)
    (h : s.turns = turn :: rest) : step s = takeTurn turn { s with turns := rest } := by
  rw [step, if_pos legal, nextTurn, h]

end Sys2Proof.Machine

open Sys2Proof Sys2Proof.Machine

/-- Settles O7: by the first listed turn; a sequencer's turn by whether it runs and what is pending. -/
theorem stepTakesFirstTurn : Obligations.StepTakesFirstTurn := by
  unfold Obligations.StepTakesFirstTurn
  intro s rest legal
  have taken := fun {turn : Turn} (h : s.turns = turn :: rest) => step_of_turn legal h
  refine ⟨fun h hr hp => ?_, fun h hr => ?_, fun h hr => ?_, fun _ _ => taken, fun _ _ _ => taken, taken, taken, taken⟩
  · have hturn : takeTurn .sequencer { s with turns := rest } = instructionStep { s with turns := rest } :=
      sequencerTurn_running hr hp
    rw [taken h, hturn]
    exact cycleFrom_instructionStep _
  · exact (taken h).trans (sequencerTurn_pending hr)
  · exact (taken h).trans (sequencerTurn_stopped hr)

end

section
/-! SUPPORT. The words of the vector instructions, and what a vector operation answers with count 0 and with every
check passed (R80, R132). -/

namespace Sys2Proof.Machine

section
variable (a b c d : BitVec 4) (fn : BitVec 10)

@[simp] theorem decode_formatR_ramp : decode (formatR 0x20#6 a b c d fn) = decodeRamp (formatR 0x20#6 a b c d fn) := by
  simp [decode]

@[simp] theorem decode_formatR_iir : decode (formatR 0x24#6 a b c d fn) = decodeIir (formatR 0x24#6 a b c d fn) := by
  simp [decode]

end

/-- Moving on to the next word changes `PC` alone. -/
theorem onlyPc_advance (s : State) : OnlyPc (s.pc + 1#32) s s.advance :=
  ⟨rfl, ⟨fun _ => rfl, fun _ => rfl, fun _ => rfl, fun _ => rfl, fun _ => rfl⟩,
    rfl, rfl, rfl, rfl, rfl, rfl, rfl, rfl, rfl, rfl, rfl, rfl, rfl⟩

section
variable {count : Nat} {checks : List (Option FaultRecord)} {effect : State → State} {s : State}

theorem vectorOp_of_zero (h : count = 0) : vectorOp count checks effect s = .next s.advance := if_pos h

theorem vectorOp_of_checked (h : count ≠ 0) (hn : firstFault checks = none) :
    vectorOp count checks effect s = .next (effect s) := (if_neg h).trans (attempt_of_none hn)

/-- A word whose instruction is a vector operation does nothing but move `PC` when the count is 0 (R80). -/
theorem executes_vectorOp_of_zero {w : Word} {i : Instr} (hw : decode w = .instr i) (hc : count = 0)
    (he : exec i s = vectorOp count checks effect s) : Executes w i s (OnlyPc (s.pc + 1#32)) :=
  ⟨hw, _, he.trans (vectorOp_of_zero hc), onlyPc_advance s⟩

end

end Sys2Proof.Machine

open Sys2Proof Sys2Proof.Machine

/-- Settles O46: all eight are vector operations over the count in `R[d]`. -/
theorem zeroCountDoesNothing : Obligations.ZeroCountDoesNothing := by
  unfold Obligations.ZeroCountDoesNothing
  intro s a b c f g d hd
  have hc : s.unsignedR d = 0 := congrArg BitVec.toNat hd
  simp only [List.forall_mem_cons]
  refine ⟨?_, ?_, ?_, ?_, ?_, ?_, ?_, ?_, nofun⟩
  · exact executes_vectorOp_of_zero (by simp [decodeRamp]) hc rfl
  · exact executes_vectorOp_of_zero (by simp [decodeRamp]) hc rfl
  all_goals exact executes_vectorOp_of_zero (by simp [decodeIir]) hc rfl

end

section
/-! SUPPORT. A filter run as a recurrence over its source words (R81, R221): where each step reads its source as it
stood before the run, what the run leaves in its target and in its descriptor. -/

namespace Sys2Proof.Machine

/-! ## The loop over memory -/

section
variable {H : Type} (kernel : Word → H → Word × H) (gain : Option Word) {xs ys n : Nat} (m : Memory) (start : H)

/-- A word outside the target of a filter loop reads as before. -/
theorem memWord_filterLoop_other {k j : Nat} (h : ¬ InRegion ys k j) :
    memWord (filterLoop kernel gain xs ys k (m, start)).1 j = memWord m j := by
  simp only [memWord]
  rw [memByte_filterLoop_other _ _ _ _ _ _ _ (by omega), memByte_filterLoop_other _ _ _ _ _ _ _ (by omega),
    memByte_filterLoop_other _ _ _ _ _ _ _ (by omega), memByte_filterLoop_other _ _ _ _ _ _ _ (by omega)]

/-- In place or with the target apart, the loop has not yet touched the source word that it reads next (R81). -/
theorem memWord_filterLoop_source (h : xs = ys ∨ Apart xs n ys n) {k : Nat} (hk : k < n) :
    memWord (filterLoop kernel gain xs ys k (m, start)).1 (xs + k) = memWord m (xs + k) :=
  memWord_filterLoop_other kernel gain m start (by omega)

/-- The history is threaded through as over the source words before the run, whatever the gain (R221). -/
theorem filterLoop_history (h : xs = ys ∨ Apart xs n ys n) {k : Nat} (hk : k ≤ n) :
    (filterLoop kernel gain xs ys k (m, start)).2 = kernelHistory kernel (fun i => memWord m (xs + i)) start k := by
  induction k with
  | zero => rfl
  | succ k ih =>
    rw [filterLoop, kernelHistory]
    dsimp only
    rw [memWord_filterLoop_source kernel gain m start h hk, ih (Nat.le_of_succ_le hk)]

/-- An overwriting loop leaves the kernel's outputs over the source words before the run (R221). -/
theorem memWord_filterLoop_target (h : xs = ys ∨ Apart xs n ys n) {k i : Nat} (hk : k ≤ n) (hi : i < k) :
    memWord (filterLoop kernel none xs ys k (m, start)).1 (ys + i) =
      kernelOutput kernel (fun i => memWord m (xs + i)) start i := by
  induction k with
  | zero => omega
  | succ k ih =>
    rw [filterLoop, memWord_setWord]
    by_cases hik : i = k
    · subst hik
      rw [if_pos rfl, memWord_filterLoop_source kernel none m start h hk,
        filterLoop_history kernel none m start h (Nat.le_of_succ_le hk)]
      rfl
    · rw [if_neg (by omega), ih (by omega) (by omega)]

end

/-! ## Writes inside a region -/

/-- A change of memory that leaves every word outside a region, and whose result at each word depends on what that
word held alone. -/
structure WritesWithin (base count : Nat) (f : Memory → Memory) : Prop where
  outside : ∀ m j, ¬ InRegion base count j → memWord (f m) j = memWord m j
  pointwise : ∀ m m' j, memWord m j = memWord m' j → memWord (f m) j = memWord (f m') j

section
variable {base count : Nat}

theorem writesWithin_setWord {k : Nat} (w : Word) (hk : InRegion base count k) :
    WritesWithin base count (fun m => memSetWord m k w) where
  outside m j hj := memWord_setWord_other m w fun h => hj (h ▸ hk)
  pointwise m m' j h := by rw [memWord_setWord, memWord_setWord, h]

theorem WritesWithin.comp {f g : Memory → Memory} (hg : WritesWithin base count g) (hf : WritesWithin base count f) :
    WritesWithin base count (fun m => g (f m)) where
  outside m j hj := (hg.outside _ j hj).trans (hf.outside m j hj)
  pointwise m m' j h := hg.pointwise _ _ j (hf.pointwise m m' j h)

end

/-- The DF-I history lies in its descriptor of 10 words (R220). -/
theorem writesWithin_saveHistoryI (q : Nat) (h : HistoryI) : WritesWithin q 10 (saveHistoryI q h) :=
  (((writesWithin_setWord h.y2 (by omega)).comp (writesWithin_setWord h.y1 (by omega))).comp
    (writesWithin_setWord h.x2 (by omega))).comp (writesWithin_setWord h.x1 (by omega))

/-- The DF-II history lies in its descriptor of 10 words (R220). -/
theorem writesWithin_saveHistoryII (q : Nat) (h : HistoryII) : WritesWithin q 10 (saveHistoryII q h) :=
  (writesWithin_setWord h.w2 (by omega)).comp (writesWithin_setWord h.w1 (by omega))

/-- The all-pole history lies in its descriptor of 4 words (R220). -/
theorem writesWithin_saveHistoryAP (q : Nat) (y1 : Word) : WritesWithin q 4 (saveHistoryAP q y1) :=
  writesWithin_setWord y1 (by omega)

/-! ## A whole run -/

/-- A filter run with its kernel, gain, starting history and write-back as arguments: the shape that the three
filters share (R221). -/
def filterWith {H : Type} (kernel : Word → H → Word × H) (gain : Option Word) (start : H) (save : H → Memory → Memory)
    (xs ys n : Nat) (m : Memory) : Memory :=
  let done := filterLoop kernel gain xs ys n (m, start)
  save done.2 done.1

theorem filterI_eq_filterWith (macc : Bool) (q xs ys n : Nat) (m : Memory) :
    filterI macc q xs ys n m =
      filterWith (stepI (loadBiquad m q)) (if macc then some (memWord m (q + 9)) else none) (loadHistoryI m q)
        (saveHistoryI q) xs ys n m := rfl

theorem filterII_eq_filterWith (macc : Bool) (q xs ys n : Nat) (m : Memory) :
    filterII macc q xs ys n m =
      filterWith (stepII (loadBiquad m q)) (if macc then some (memWord m (q + 9)) else none) (loadHistoryII m q)
        (saveHistoryII q) xs ys n m := rfl

theorem filterAP_eq_filterWith (macc : Bool) (q xs ys n : Nat) (m : Memory) :
    filterAP macc q xs ys n m =
      filterWith (stepAP (loadOnePole m q)) (if macc then some (memWord m (q + 3)) else none) (memWord m (q + 2))
        (saveHistoryAP q) xs ys n m := rfl

section
variable {H : Type} {kernel : Word → H → Word × H} {start : H} {save : H → Memory → Memory} {q words xs ys n : Nat}
  {m : Memory}

/-- What an overwriting run leaves in a target apart from its descriptor. -/
theorem memWord_filterWith_target (hs : ∀ h, WritesWithin q words (save h)) (hx : xs = ys ∨ Apart xs n ys n)
    (hq : Apart q words ys n) {k : Nat} (hk : k < n) :
    memWord (filterWith kernel none start save xs ys n m) (ys + k) =
      kernelOutput kernel (fun i => memWord m (xs + i)) start k := by
  rw [filterWith, (hs _).outside _ _ (by omega)]
  exact memWord_filterLoop_target kernel m start hx (Nat.le_refl n) hk

/-- What a run leaves in its descriptor: the history over the source words before the run, whatever the gain. -/
theorem memWord_filterWith_descriptor (gain : Option Word) (hs : ∀ h, WritesWithin q words (save h))
    (hx : xs = ys ∨ Apart xs n ys n) (hq : Apart q words ys n) {j : Nat} (hj : InRegion q words j) :
    memWord (filterWith kernel gain start save xs ys n m) j =
      memWord (save (kernelHistory kernel (fun i => memWord m (xs + i)) start n) m) j := by
  rw [filterWith, filterLoop_history kernel gain m start hx (Nat.le_refl n)]
  exact (hs _).pointwise _ _ j (memWord_filterLoop_other kernel gain m start (by omega))

/-- In place or with the target apart (R81): the outputs of the overwriting form, and the descriptor that every gain
leaves as the overwriting form does (R221). -/
theorem filterWith_outputs_and_descriptor (gain : Option Word) (hs : ∀ h, WritesWithin q words (save h))
    (hx : xs = ys ∨ Apart xs n ys n) (hq : Apart q words ys n) :
    (∀ k, k < n → memWord (filterWith kernel none start save xs ys n m) (ys + k) =
      kernelOutput kernel (fun i => memWord m (xs + i)) start k) ∧
    ∀ j, q ≤ j → j < q + words → memWord (filterWith kernel gain start save xs ys n m) j =
      memWord (filterWith kernel none start save xs ys n m) j :=
  ⟨fun _ hk => memWord_filterWith_target hs hx hq hk, fun _ hj hjq =>
    (memWord_filterWith_descriptor gain hs hx hq ⟨hj, hjq⟩).trans
      (memWord_filterWith_descriptor none hs hx hq ⟨hj, hjq⟩).symm⟩

end

/-! ## The instructions -/

/-- A filter's count is not 0, and its descriptor of `words` words, its source and its target exist (R220, R221). -/
structure FilterInRange (s : State) (words : Nat) (a b c d : RReg) : Prop where
  count : 0 < s.unsignedR d
  descriptor : s.unsignedR a + words ≤ s.cfg.dmemWords
  source : s.unsignedR b + s.unsignedR d ≤ s.cfg.dmemWords
  target : s.unsignedR c + s.unsignedR d ≤ s.cfg.dmemWords

section
variable {s : State} {words : Nat} {a b c d : RReg}

/-- A filter in range passes its checks and has its whole effect (R132, R221). -/
theorem runFilter_of_inRange (filter : Nat → Nat → Nat → Nat → Memory → Memory) (h : FilterInRange s words a b c d) :
    runFilter words filter a b c d s = .next
      { s with dmem := filter (s.unsignedR a) (s.unsignedR b) (s.unsignedR c) (s.unsignedR d) s.dmem }.advance := by
  refine vectorOp_of_checked (Nat.ne_of_gt h.count) ?_
  rw [filterChecks, rangeCheck_eq_none.2 h.descriptor, rangeCheck_eq_none.2 h.source, rangeCheck_eq_none.2 h.target]
  rfl

/-- The overwriting and the accumulating form of one filter: the outputs of the first, and the descriptor that both
leave (R81, R221). -/
theorem runFilter_outputs_and_descriptor {H : Type} {kernel : Word → H → Word × H} {gain : Option Word} {start : H}
    {save : H → Memory → Memory} {overwriting accumulating : Nat → Nat → Nat → Nat → Memory → Memory}
    (ho : ∀ xs ys n, overwriting (s.unsignedR a) xs ys n s.dmem = filterWith kernel none start save xs ys n s.dmem)
    (ha : ∀ xs ys n, accumulating (s.unsignedR a) xs ys n s.dmem = filterWith kernel gain start save xs ys n s.dmem)
    (hs : ∀ h, WritesWithin (s.unsignedR a) words (save h)) (h : FilterInRange s words a b c d)
    (hx : s.unsignedR b = s.unsignedR c ∨ Apart (s.unsignedR b) (s.unsignedR d) (s.unsignedR c) (s.unsignedR d))
    (hq : Apart (s.unsignedR a) words (s.unsignedR c) (s.unsignedR d)) :
    ∃ t u, runFilter words overwriting a b c d s = .next t ∧ runFilter words accumulating a b c d s = .next u ∧
      (∀ k, k < s.unsignedR d → t.dmemWord (s.unsignedR c + k) =
        kernelOutput kernel (fun k => s.dmemWord (s.unsignedR b + k)) start k) ∧
      ∀ j, s.unsignedR a ≤ j → j < s.unsignedR a + words → u.dmemWord j = t.dmemWord j := by
  refine ⟨_, _, runFilter_of_inRange overwriting h, runFilter_of_inRange accumulating h, ?_⟩
  simp only [State.dmemWord, advance_dmem, ho, ha]
  exact filterWith_outputs_and_descriptor gain hs hx hq

end

end Sys2Proof.Machine

open Sys2Proof Sys2Proof.Machine

/-- Settles O51: each source word is read before the run overwrites it, so outputs and history are those of the
recurrence over the source words before the run. -/
theorem inPlaceFilterAndHistory : Obligations.InPlaceFilterAndHistory := by
  unfold Obligations.InPlaceFilterAndHistory
  intro s a b c d n q xs ys source hn hx hy hxy
  have inRange := fun {words : Nat} (hq : q + words ≤ s.cfg.dmemWords) =>
    show FilterInRange s words a b c d from ⟨hn, hq, hx, hy⟩
  refine ⟨fun hq => ?_, fun hq => ?_, fun hq => ?_⟩
  · exact runFilter_outputs_and_descriptor (fun _ _ _ => filterI_eq_filterWith false _ _ _ _ _)
      (fun _ _ _ => filterI_eq_filterWith true _ _ _ _ _) (writesWithin_saveHistoryI q) (inRange hq) hxy
  · exact runFilter_outputs_and_descriptor (fun _ _ _ => filterII_eq_filterWith false _ _ _ _ _)
      (fun _ _ _ => filterII_eq_filterWith true _ _ _ _ _) (writesWithin_saveHistoryII q) (inRange hq) hxy
  · exact runFilter_outputs_and_descriptor (fun _ _ _ => filterAP_eq_filterWith false _ _ _ _ _)
      (fun _ _ _ => filterAP_eq_filterWith true _ _ _ _ _) (writesWithin_saveHistoryAP q) (inRange hq) hxy

end

section
/-! SUPPORT. A word as its fields (R101), the immediates that fit their fields (R103), and the check of the fields that
an instruction does not use or that name a `P` register (R102). -/

namespace Sys2Proof

/-! ## A word is the word of its fields -/

section
variable (w : Word)

theorem formatR_fields :
    formatR (opField w) (aField w) (bField w) (cField w) (dField w) (fnField w) = w := by
  simp only [formatR, opField, aField, bField, cField, dField, fnField]
  iterate 5 rw [BitVec.extractLsb'_append_extractLsb'_eq_extractLsb' (by rfl)]
  exact extract_whole w

theorem formatI_fields : formatI (opField w) (aField w) (bField w) (imm18Field w) = w := by
  simp only [formatI, opField, aField, bField, imm18Field]
  iterate 3 rw [BitVec.extractLsb'_append_extractLsb'_eq_extractLsb' (by rfl)]
  exact extract_whole w

theorem formatU_fields : formatU (opField w) (aField w) (imm22Field w) = w := by
  simp only [formatU, opField, aField, imm22Field]
  iterate 2 rw [BitVec.extractLsb'_append_extractLsb'_eq_extractLsb' (by rfl)]
  exact extract_whole w

end

section
variable {w : Word} {op : BitVec 6} {a b c d : BitVec 4} {fn : BitVec 10} {i18 : BitVec 18} {i22 : BitVec 22}

theorem formatR_eq_iff : formatR op a b c d fn = w ↔
    opField w = op ∧ aField w = a ∧ bField w = b ∧ cField w = c ∧ dField w = d ∧ fnField w = fn := by
  constructor
  · rintro rfl
    simp
  · rintro ⟨rfl, rfl, rfl, rfl, rfl, rfl⟩
    exact formatR_fields w

theorem formatI_eq_iff : formatI op a b i18 = w ↔
    opField w = op ∧ aField w = a ∧ bField w = b ∧ imm18Field w = i18 := by
  constructor
  · rintro rfl
    simp
  · rintro ⟨rfl, rfl, rfl, rfl⟩
    exact formatI_fields w

theorem formatU_eq_iff : formatU op a i22 = w ↔ opField w = op ∧ aField w = a ∧ imm22Field w = i22 := by
  constructor
  · rintro rfl
    simp
  · rintro ⟨rfl, rfl, rfl⟩
    exact formatU_fields w

theorem formatN_eq_iff : formatN op = w ↔ opField w = op ∧ w.extractLsb' 0 26 = 0#26 := by
  constructor
  · rintro rfl
    exact ⟨(extract_high op 0#26 26 (Nat.le_refl 26)).trans (extract_whole op),
      (extract_low op 0#26 0 (Nat.le_refl 26)).trans (extract_whole 0#26)⟩
  · rintro ⟨rfl, h⟩
    rw [formatN, opField, ← h, BitVec.extractLsb'_append_extractLsb'_eq_extractLsb' (by rfl)]
    exact extract_whole w

theorem opField_eq_of_toNat {n : Nat} (h : (opField w).toNat = n) : opField w = BitVec.ofNat 6 n := by
  rw [← h, BitVec.ofNat_toNat, BitVec.setWidth_eq]

theorem fnField_eq_of_toNat {n : Nat} (h : (fnField w).toNat = n) : fnField w = BitVec.ofNat 10 n := by
  rw [← h, BitVec.ofNat_toNat, BitVec.setWidth_eq]

end

/-- A field is the field of the `P` register it names exactly when its top bit is 0 (R102). -/
theorem eq_phaseField_phaseReg_iff (x : BitVec 4) : x = phaseField (phaseReg x) ↔ x.msb = false := by
  revert x; decide

/-! ## Immediates -/

section
variable {n : Int} {k : Nat} (w : Word)

theorem toInt_ofInt_of_fitsSigned18 (h : fitsSigned18 n = true) : (BitVec.ofInt 18 n).toInt = n := by
  simp only [fitsSigned18, Bool.and_eq_true, decide_eq_true_eq] at h
  exact BitVec.toInt_ofInt_eq_self (by decide) (by omega) (by omega)

theorem toInt_ofInt_of_fitsSigned22 (h : fitsSigned22 n = true) : (BitVec.ofInt 22 n).toInt = n := by
  simp only [fitsSigned22, Bool.and_eq_true, decide_eq_true_eq] at h
  exact BitVec.toInt_ofInt_eq_self (by decide) (by omega) (by omega)

theorem toNat_ofNat_of_fitsUnsigned18 (h : fitsUnsigned18 k = true) : (BitVec.ofNat 18 k).toNat = k := by
  simp only [fitsUnsigned18, decide_eq_true_eq] at h
  exact Nat.mod_eq_of_lt (by omega)

theorem toNat_ofNat_of_fitsUnsigned22 (h : fitsUnsigned22 k = true) : (BitVec.ofNat 22 k).toNat = k := by
  simp only [fitsUnsigned22, decide_eq_true_eq] at h
  exact Nat.mod_eq_of_lt (by omega)

@[simp] theorem fitsSigned18_signed18 : fitsSigned18 (signed18 w) = true := by
  have lower : -131072 ≤ signed18 w := BitVec.le_toInt (imm18Field w)
  have upper : signed18 w < 131072 := BitVec.toInt_lt
  simp only [fitsSigned18, Bool.and_eq_true, decide_eq_true_eq]
  omega

@[simp] theorem fitsSigned22_signed22 : fitsSigned22 (signed22 w) = true := by
  have lower : -2097152 ≤ signed22 w := BitVec.le_toInt (imm22Field w)
  have upper : signed22 w < 2097152 := BitVec.toInt_lt
  simp only [fitsSigned22, Bool.and_eq_true, decide_eq_true_eq]
  omega

@[simp] theorem fitsUnsigned18_unsigned18 : fitsUnsigned18 (unsigned18 w) = true := by
  have upper : unsigned18 w < 262144 := (imm18Field w).isLt
  simp only [fitsUnsigned18, decide_eq_true_eq]
  omega

@[simp] theorem fitsUnsigned22_unsigned22 : fitsUnsigned22 (unsigned22 w) = true := by
  have upper : unsigned22 w < 4194304 := (imm22Field w).isLt
  simp only [fitsUnsigned22, decide_eq_true_eq]
  omega

@[simp] theorem ofInt_signed18 : BitVec.ofInt 18 (signed18 w) = imm18Field w := BitVec.ofInt_toInt

@[simp] theorem ofInt_signed22 : BitVec.ofInt 22 (signed22 w) = imm22Field w := BitVec.ofInt_toInt

@[simp] theorem ofNat_unsigned18 : BitVec.ofNat 18 (unsigned18 w) = imm18Field w := by
  rw [unsigned18, BitVec.ofNat_toNat, BitVec.setWidth_eq]

@[simp] theorem ofNat_unsigned22 : BitVec.ofNat 22 (unsigned22 w) = imm22Field w := by
  rw [unsigned22, BitVec.ofNat_toNat, BitVec.setWidth_eq]

end

/-! ## The checks of the decoder -/

theorem checkFields_eq_instr {phase unused : List (BitVec 4)} {i j : Instr} :
    checkFields phase unused i = .instr j ↔
      (∀ x ∈ phase, x.msb = false) ∧ (∀ x ∈ unused, x = 0#4) ∧ i = j := by
  have hphase : phase.any (fun x => x.msb) = true ↔ ¬ ∀ x ∈ phase, x.msb = false := by simp
  have hunused : unused.any (fun x => x != 0#4) = true ↔ ¬ ∀ x ∈ unused, x = 0#4 := by simp
  simp only [checkFields, hphase, hunused, ite_not]
  by_cases hp : ∀ x ∈ phase, x.msb = false
  · by_cases hu : ∀ x ∈ unused, x = 0#4
    · rw [if_pos hp, if_pos hu, Decoded.instr.injEq]
      exact ⟨fun h => ⟨hp, hu, h⟩, fun ⟨_, _, h⟩ => h⟩
    · rw [if_pos hp, if_neg hu]
      exact ⟨nofun, fun ⟨_, h, _⟩ => absurd h hu⟩
  · rw [if_neg hp]
    exact ⟨nofun, fun ⟨h, _⟩ => absurd h hp⟩

theorem decodeN_eq_instr {w : Word} {i j : Instr} :
    decodeN w i = .instr j ↔ w.extractLsb' 0 26 = 0#26 ∧ i = j := by
  unfold decodeN
  split
  · next h => simp [h]
  · next h => simp [h]

end Sys2Proof
end

section
/-! SUPPORT. The decoder against the encoder: the word of a well-formed instruction decodes to it, and a word that
decodes is the word of what it decodes to. -/

namespace Sys2Proof

/-! ## From an instruction to its word and back -/

/-- The word of a well-formed instruction decodes to it. -/
theorem decode_encode {i : Instr} (h : i.wellFormed = true) : decode (encode i) = .instr i := by
  cases i with
  | nop | halt => decide
  | li | j | beqz | bnez =>
    simp [encode, decode, signed22, checkFields_eq_instr, toInt_ofInt_of_fitsSigned22 h]
  | lui => simp [encode, decode, unsigned22, toNat_ofNat_of_fitsUnsigned22 h]
  | ori => simp [encode, decode, unsigned18, toNat_ofNat_of_fitsUnsigned18 h]
  | addi | lw | sw | flw | fsw | plw | psw | pldd =>
    simp [encode, decode, signed18, checkFields_eq_instr, toInt_ofInt_of_fitsSigned18 h]
  | add | sub | and | or | xor | slt | sltu => simp [encode, decode, decodeAlu, checkFields_eq_instr]
  | fadd | fsub | fmul | fmvrf | fmvfr | fcvtsw => simp [encode, decode, decodeFloat, checkFields_eq_instr]
  | padd | pneg | psubi | pmask | pwrap | prefl | pint | pfrac | pge | pmov | pfromf =>
    simp [encode, decode, decodePhase, checkFields_eq_instr]
  | wlk => simp [encode, decode, decodeWave, checkFields_eq_instr]
  | vrampa | vrampm => simp [encode, decode, decodeRamp]
  | iir2di | iir2dii | iir1ap | iir2diMacc | iir2diiMacc | iir1apMacc => simp [encode, decode, decodeIir]

/-! ## From a word to its instruction and back -/

/-- `w` is the word of the well-formed instruction `i`. -/
def IsWordOf (w : Word) (i : Instr) : Prop := encode i = w ∧ i.wellFormed = true

section
variable {w : Word} {i j : Instr} {phase unused : List (BitVec 4)}

/-- A word whose fields pass the check may be taken to have a 0 in the top bit of each `P` field and in each unused
field (R102). -/
theorem IsWordOf.of_checkFields (h : checkFields phase unused i = .instr j)
    (hw : (∀ x ∈ phase, x.msb = false) → (∀ x ∈ unused, x = 0#4) → IsWordOf w i) : IsWordOf w j := by
  obtain ⟨hp, hu, rfl⟩ := checkFields_eq_instr.1 h
  exact hw hp hu

theorem isWordOf_of_decodeAlu (hop : opField w = 0x06#6) (h : decodeAlu w = .instr i) : IsWordOf w i := by
  unfold decodeAlu at h
  split at h
  case h_8 => contradiction
  all_goals
    next hfn =>
    refine .of_checkFields h ?_
    simp +contextual [IsWordOf, encode, Instr.wellFormed, formatR_eq_iff, hop, fnField_eq_of_toNat hfn]

theorem isWordOf_of_decodeFloat (hop : opField w = 0x14#6) (h : decodeFloat w = .instr i) : IsWordOf w i := by
  unfold decodeFloat at h
  split at h
  case h_7 => contradiction
  all_goals
    next hfn =>
    refine .of_checkFields h ?_
    simp +contextual [IsWordOf, encode, Instr.wellFormed, formatR_eq_iff, hop, fnField_eq_of_toNat hfn]

theorem isWordOf_of_decodePhase (hop : opField w = 0x18#6) (h : decodePhase w = .instr i) : IsWordOf w i := by
  unfold decodePhase at h
  dsimp only at h
  split at h
  case h_12 => contradiction
  all_goals
    next hfn =>
    refine .of_checkFields h ?_
    simp +contextual [IsWordOf, encode, Instr.wellFormed, formatR_eq_iff, eq_phaseField_phaseReg_iff, hop,
      fnField_eq_of_toNat hfn]

theorem isWordOf_of_decodeWave (hop : opField w = 0x1C#6) (h : decodeWave w = .instr i) : IsWordOf w i := by
  unfold decodeWave at h
  split at h
  case h_2 => contradiction
  next hfn =>
  refine .of_checkFields h ?_
  simp +contextual [IsWordOf, encode, Instr.wellFormed, formatR_eq_iff, eq_phaseField_phaseReg_iff, hop,
    fnField_eq_of_toNat hfn]

theorem isWordOf_of_decodeRamp (hop : opField w = 0x20#6) (h : decodeRamp w = .instr i) : IsWordOf w i := by
  unfold decodeRamp at h
  split at h
  case h_3 => contradiction
  all_goals
    next hfn =>
    cases h
    simp [IsWordOf, encode, Instr.wellFormed, formatR_eq_iff, hop, fnField_eq_of_toNat hfn]

theorem isWordOf_of_decodeIir (hop : opField w = 0x24#6) (h : decodeIir w = .instr i) : IsWordOf w i := by
  unfold decodeIir at h
  split at h
  case h_7 => contradiction
  all_goals
    next hfn =>
    cases h
    simp [IsWordOf, encode, Instr.wellFormed, formatR_eq_iff, hop, fnField_eq_of_toNat hfn]

/-- What `decode` accepts, opcode by opcode, has the fields and the 0s that `encode` writes. -/
theorem isWordOf_of_decode (h : decode w = .instr i) : IsWordOf w i := by
  unfold decode at h
  dsimp only at h
  split at h
  case h_23 => contradiction
  all_goals
    rename_i hop
    replace hop := opField_eq_of_toNat hop
  case h_1 | h_2 =>
    obtain ⟨hlow, rfl⟩ := decodeN_eq_instr.1 h
    exact ⟨formatN_eq_iff.2 ⟨hop, hlow⟩, rfl⟩
  case h_7 => exact isWordOf_of_decodeAlu hop h
  case h_18 => exact isWordOf_of_decodeFloat hop h
  case h_19 => exact isWordOf_of_decodePhase hop h
  case h_20 => exact isWordOf_of_decodeWave hop h
  case h_21 => exact isWordOf_of_decodeRamp hop h
  case h_22 => exact isWordOf_of_decodeIir hop h
  case h_8 | h_15 | h_16 | h_17 =>
    refine .of_checkFields h ?_
    simp +contextual [IsWordOf, encode, Instr.wellFormed, formatI_eq_iff, formatU_eq_iff,
      eq_phaseField_phaseReg_iff, hop]
  all_goals
    cases h
    simp [IsWordOf, encode, Instr.wellFormed, formatI_eq_iff, formatU_eq_iff, hop]

end

end Sys2Proof
end

section
/-! SUPPORT. The decoder against the opcode table (R106): a word in the row of an instruction decodes to an instruction
of that row, and a word that decodes lies in the row of what it decodes to. -/

namespace Sys2Proof

/-! ## Rows by their fields -/

/-! A mask that covers a field whole, and one that covers the top bit of a `P` field. -/

theorem and_63 (x : BitVec 6) : x &&& 63#6 = x := BitVec.and_allOnes

theorem and_15 (x : BitVec 4) : x &&& 15#4 = x := BitVec.and_allOnes

theorem and_1023 (x : BitVec 10) : x &&& 1023#10 = x := BitVec.and_allOnes

theorem and_top_eq_zero_iff (x : BitVec 4) : x &&& 8#4 = 0#4 ↔ x.msb = false := by
  revert x; decide

/-! The fields of a mask or pattern as R106 prints it. -/

theorem extractLsb'_ofNat {n lo k m : Nat} (h : lo + k ≤ m) :
    (BitVec.ofNat m n).extractLsb' lo k = BitVec.ofNat k (n >>> lo) := by
  apply BitVec.eq_of_getLsbD_eq
  intro i hi
  rw [BitVec.getLsbD_extractLsb', BitVec.getLsbD_ofNat, BitVec.getLsbD_ofNat, Nat.testBit_shiftRight]
  simp [hi, show lo + i < m by omega]

section
variable (n : Nat)

theorem opField_ofNat : opField (BitVec.ofNat 32 n) = BitVec.ofNat 6 (n >>> 26) := extractLsb'_ofNat (by decide)

theorem aField_ofNat : aField (BitVec.ofNat 32 n) = BitVec.ofNat 4 (n >>> 22) := extractLsb'_ofNat (by decide)

theorem bField_ofNat : bField (BitVec.ofNat 32 n) = BitVec.ofNat 4 (n >>> 18) := extractLsb'_ofNat (by decide)

theorem cField_ofNat : cField (BitVec.ofNat 32 n) = BitVec.ofNat 4 (n >>> 14) := extractLsb'_ofNat (by decide)

theorem dField_ofNat : dField (BitVec.ofNat 32 n) = BitVec.ofNat 4 (n >>> 10) := extractLsb'_ofNat (by decide)

theorem fnField_ofNat : fnField (BitVec.ofNat 32 n) = BitVec.ofNat 10 n := extractLsb'_ofNat (by decide)

end

section
variable {w : Word} {i : Instr}

/-- A word that matches a pattern under a mask matches it field by field. -/
theorem fields_of_match {mask pattern : Word} (h : w &&& mask = pattern) :
    opField w &&& opField mask = opField pattern ∧ aField w &&& aField mask = aField pattern ∧
    bField w &&& bField mask = bField pattern ∧ cField w &&& cField mask = cField pattern ∧
    dField w &&& dField mask = dField pattern ∧ fnField w &&& fnField mask = fnField pattern := by
  subst h
  simp only [opField, aField, bField, cField, dField, fnField, BitVec.extractLsb'_and, and_self]

/-- A word in the row of `i` decodes to an instruction of that row (R106). -/
theorem decode_of_match (h : w &&& (opcodeRow i).mask = (opcodeRow i).pattern) :
    ∃ j, decode w = .instr j ∧ opcodeRow j = opcodeRow i := by
  obtain ⟨hop, ha, hb, hc, hd, hfn⟩ := fields_of_match h
  cases i
  case nop | halt =>
    obtain rfl : w = _ := (BitVec.and_allOnes (x := w)).symm.trans h
    exact ⟨_, rfl, rfl⟩
  all_goals
    simp only [opcodeRow, BitVec.ofNat_eq_ofNat, opField_ofNat, aField_ofNat, bField_ofNat, cField_ofNat,
      dField_ofNat, fnField_ofNat, Nat.reduceShiftRight, BitVec.reduceOfNat, and_63, and_15, and_1023,
      and_top_eq_zero_iff] at hop ha hb hc hd hfn
  case li | lui | addi | ori | beqz | bnez | lw | sw | flw | fsw => simp [decode, opcodeRow, hop]
  case j | plw | psw | pldd => simp [decode, opcodeRow, hop, ha, checkFields_eq_instr]
  case add | sub | and | or | xor | slt | sltu =>
    simp [decode, decodeAlu, opcodeRow, hop, hd, hfn, checkFields_eq_instr]
  case fadd | fsub | fmul | fmvrf | fmvfr | fcvtsw =>
    simp [decode, decodeFloat, opcodeRow, hop, hc, hd, hfn, checkFields_eq_instr]
  case padd | pneg | psubi | pmask | pwrap | prefl | pint | pfrac | pge | pmov | pfromf =>
    simp [decode, decodePhase, opcodeRow, hop, ha, hb, hc, hd, hfn, checkFields_eq_instr]
  case wlk => simp [decode, decodeWave, opcodeRow, hop, hb, hfn, checkFields_eq_instr]
  case vrampa | vrampm => simp [decode, decodeRamp, opcodeRow, hop, hfn]
  case iir2di | iir2dii | iir1ap | iir2diMacc | iir2diiMacc | iir1apMacc =>
    simp [decode, decodeIir, opcodeRow, hop, hfn]

end

end Sys2Proof

namespace Sys2Proof.Laws

/-- The word of every instruction lies in the instruction's row (R106). -/
theorem encodeInRow : ∀ i : Instr, EncodeInRow.Statement i
  | .nop => EncodeInRow.nop
  | .halt => EncodeInRow.halt
  | .li a imm => EncodeInRow.li a imm
  | .lui a imm => EncodeInRow.lui a imm
  | .addi a b imm => EncodeInRow.addi a b imm
  | .ori a b imm => EncodeInRow.ori a b imm
  | .add a b c => EncodeInRow.add a b c
  | .sub a b c => EncodeInRow.sub a b c
  | .and a b c => EncodeInRow.and a b c
  | .or a b c => EncodeInRow.or a b c
  | .xor a b c => EncodeInRow.xor a b c
  | .slt a b c => EncodeInRow.slt a b c
  | .sltu a b c => EncodeInRow.sltu a b c
  | .j offset => EncodeInRow.j offset
  | .beqz a offset => EncodeInRow.beqz a offset
  | .bnez a offset => EncodeInRow.bnez a offset
  | .lw a b imm => EncodeInRow.lw a b imm
  | .sw a b imm => EncodeInRow.sw a b imm
  | .flw a b imm => EncodeInRow.flw a b imm
  | .fsw a b imm => EncodeInRow.fsw a b imm
  | .plw a b imm => EncodeInRow.plw a b imm
  | .psw a b imm => EncodeInRow.psw a b imm
  | .pldd a b imm => EncodeInRow.pldd a b imm
  | .fadd a b c => EncodeInRow.fadd a b c
  | .fsub a b c => EncodeInRow.fsub a b c
  | .fmul a b c => EncodeInRow.fmul a b c
  | .fmvrf a b => EncodeInRow.fmvrf a b
  | .fmvfr a b => EncodeInRow.fmvfr a b
  | .fcvtsw a b => EncodeInRow.fcvtsw a b
  | .padd a b c => EncodeInRow.padd a b c
  | .pneg a b => EncodeInRow.pneg a b
  | .psubi a b c => EncodeInRow.psubi a b c
  | .pmask a b c => EncodeInRow.pmask a b c
  | .pwrap a b c d => EncodeInRow.pwrap a b c d
  | .prefl a b c => EncodeInRow.prefl a b c
  | .pint a b => EncodeInRow.pint a b
  | .pfrac a b => EncodeInRow.pfrac a b
  | .pge a b c => EncodeInRow.pge a b c
  | .pmov a b => EncodeInRow.pmov a b
  | .pfromf a b => EncodeInRow.pfromf a b
  | .wlk a b c d => EncodeInRow.wlk a b c d
  | .vrampa a b c d => EncodeInRow.vrampa a b c d
  | .vrampm a b c d => EncodeInRow.vrampm a b c d
  | .iir2di a b c d => EncodeInRow.iir2di a b c d
  | .iir2dii a b c d => EncodeInRow.iir2dii a b c d
  | .iir1ap a b c d => EncodeInRow.iir1ap a b c d
  | .iir2diMacc a b c d => EncodeInRow.iir2diMacc a b c d
  | .iir2diiMacc a b c d => EncodeInRow.iir2diiMacc a b c d
  | .iir1apMacc a b c d => EncodeInRow.iir1apMacc a b c d

end Sys2Proof.Laws

namespace Sys2Proof

variable {w : Word} {i : Instr}

theorem match_of_decode (h : decode w = .instr i) : w &&& (opcodeRow i).mask = (opcodeRow i).pattern :=
  (isWordOf_of_decode h).1 ▸ Laws.encodeInRow i

theorem opcodeRow_mem_opcodeTable (i : Instr) : opcodeRow i ∈ opcodeTable := by
  cases i <;> simp [opcodeTable, oneOfEach, opcodeRow]

/-- A word lies in a row exactly when it is not illegal (R107). -/
theorem exists_row_iff (w : Word) :
    (∃ row ∈ opcodeTable, w &&& row.mask = row.pattern) ↔ ¬ ∃ why, decode w = .illegal why := by
  constructor
  · rintro ⟨row, hrow, hw⟩ ⟨why, hwhy⟩
    obtain ⟨i, -, rfl⟩ := List.mem_map.1 hrow
    obtain ⟨j, hj, -⟩ := decode_of_match hw
    simp [hj] at hwhy
  · intro legal
    cases hd : decode w with
    | instr i => exact ⟨opcodeRow i, opcodeRow_mem_opcodeTable i, match_of_decode hd⟩
    | illegal why => exact absurd ⟨why, hd⟩ legal

end Sys2Proof

open Sys2Proof Sys2Proof.Machine

/-- Settles O1, by the instruction: each field of its word is the field it was put in. -/
theorem decodeOfEncode : Obligations.DecodeOfEncode := by
  unfold Obligations.DecodeOfEncode
  exact fun _ => decode_encode

/-- Settles O2, by the row that the decoder took. -/
theorem encodeOfDecode : Obligations.EncodeOfDecode := by
  unfold Obligations.EncodeOfDecode
  exact fun _ _ => isWordOf_of_decode

/-- Settles O3: a word in a row decodes to an instruction of the row, and a word decodes to one instruction only. -/
theorem decodeAgreesWithOpcodeTable : Obligations.DecodeAgreesWithOpcodeTable := by
  unfold Obligations.DecodeAgreesWithOpcodeTable
  have row_iff : ∀ (w : Word) (row : OpcodeRow), row ∈ opcodeTable →
      (w &&& row.mask = row.pattern ↔ ∃ i, decode w = .instr i ∧ opcodeRow i = row) := by
    intro w row hrow
    obtain ⟨i, -, rfl⟩ := List.mem_map.1 hrow
    refine ⟨decode_of_match, ?_⟩
    rintro ⟨j, hj, hrow⟩
    exact hrow ▸ match_of_decode hj
  refine ⟨row_iff, fun w x y hx hy hwx hwy => ?_⟩
  obtain ⟨i, hi, rfl⟩ := (row_iff w x hx).1 hwx
  obtain ⟨j, hj, rfl⟩ := (row_iff w y hy).1 hwy
  exact congrArg opcodeRow (Decoded.instr.inj (hi.symm.trans hj))

/-- Settles O5: a word lies in a row exactly when it decodes, and what does not decode faults. -/
theorem unmatchedWordIsIllegal : Obligations.UnmatchedWordIsIllegal := by
  unfold Obligations.UnmatchedWordIsIllegal
  refine ⟨fun s inside hrows => ?_, exists_row_iff, by decide, .reservedOpcode, by decide⟩
  have ⟨why, hw⟩ : ∃ why, decode (s.imemWord s.pc.toNat) = .illegal why :=
    Classical.not_not.1 fun legal => absurd ((exists_row_iff _).2 legal) (by simpa using hrows)
  exact ((cycleFrom_instructionStep s).2 inside).2 why hw

/-- Settles O4, word by word. -/
theorem writtenWordsDecode : Obligations.WrittenWordsDecode := by
  unfold Obligations.WrittenWordsDecode
  decide

end

section
/-! SUPPORT. What the instructions that write one register or `PC` leave, and their operands as the rules write them
(R103, R135 to R148). -/

namespace Sys2Proof.Machine

/-! ## Words as integers -/

/-- A sum modulo 2^n, its second operand read as a signed number. -/
theorem add_eq_ofInt_toInt {n : Nat} (x y : BitVec n) : x + y = BitVec.ofInt n (x.toNat + y.toInt) := by
  rw [BitVec.ofInt_add, BitVec.ofInt_toInt, BitVec.ofInt_natCast, BitVec.ofNat_toNat, BitVec.setWidth_eq]

theorem sub_eq_ofInt_toNat {n : Nat} (x y : BitVec n) : x - y = BitVec.ofInt n (x.toNat - y.toNat) := by
  rw [Int.sub_eq_add_neg, BitVec.ofInt_add, BitVec.ofInt_neg, BitVec.sub_eq_add_neg]
  simp

/-- A signed immediate is its field extended by its sign (R103). -/
@[simp] theorem signedImm_toInt {n : Nat} (imm : BitVec n) : signedImm imm.toInt = imm.signExtend 32 := rfl

@[simp] theorem unsignedImm_toNat {n : Nat} (imm : BitVec n) : unsignedImm imm.toNat = imm.setWidth 32 :=
  BitVec.ofNat_toNat 32 imm

@[simp] theorem upperImm_toNat (imm : BitVec 22) : upperImm imm.toNat = imm ++ 0#10 := by simp [upperImm]

/-- A target counts from the branch itself, modulo 2^32 (R146). -/
theorem branchTarget_toInt (s : State) (imm : BitVec 22) :
    branchTarget s imm.toInt = BitVec.ofInt 32 (s.pc.toNat + (imm.signExtend 32).toInt) :=
  add_eq_ofInt_toInt s.pc (imm.signExtend 32)

theorem truthWord_decide (holds : Prop) [Decidable holds] :
    truthWord (decide holds) = if holds then 1#32 else 0#32 := by simp [truthWord]

/-! ## What changed -/

section
variable (s : State)

theorem sameControl_refl : SameControl s s :=
  ⟨rfl, rfl, rfl, rfl, rfl, rfl, rfl, rfl, rfl, rfl, rfl, rfl, rfl⟩

theorem sameData_refl : SameData s s := ⟨fun _ => rfl, fun _ => rfl, fun _ => rfl, fun _ => rfl, fun _ => rfl⟩

theorem onlyPc_goTo (target : Word) : OnlyPc target s (s.goTo target) := ⟨rfl, sameData_refl s, sameControl_refl s⟩

theorem onlyR_writeR (a : RReg) (v : Word) : OnlyR a v s (s.writeR a v).advance :=
  ⟨readR_writeR_same s a v, fun _ hk => readR_writeR_other s v hk, rfl, fun _ => rfl, fun _ => rfl, fun _ => rfl,
    fun _ => rfl, sameControl_refl s⟩

theorem onlyF_writeF (a : FReg) (v : Word) : OnlyF a v s (s.writeF a v).advance :=
  ⟨readF_writeF_same s a v, fun _ hk => readF_writeF_other s v hk, rfl, fun _ => rfl, fun _ => rfl, fun _ => rfl,
    fun _ => rfl, sameControl_refl s⟩

theorem onlyP_writeP (a : PReg) (v : DWord) : OnlyP a v s (s.writeP a v).advance :=
  ⟨readP_writeP_same s a v, fun _ hk => readP_writeP_other s v hk, rfl, fun _ => rfl, fun _ => rfl, fun _ => rfl,
    fun _ => rfl, sameControl_refl s⟩

end

/-! ## Words that decode -/

theorem decode_formatR_alu (a b c d : BitVec 4) (fn : BitVec 10) :
    decode (formatR 0x06#6 a b c d fn) = decodeAlu (formatR 0x06#6 a b c d fn) := by
  simp [decode]

section
variable {s : State} {w : Word} {i : Instr}

/-- A word whose instruction finishes by writing `R[a]`; `v` is the value as its rule writes it. -/
theorem executes_finishR {a : RReg} {v v' : Word} (hw : decode w = .instr i) (he : exec i s = finishR a v' s)
    (hv : v' = v) : Executes w i s (OnlyR a v) :=
  ⟨hw, _, he, hv ▸ onlyR_writeR s a v'⟩

/-- A branch: it goes to its target or moves on. -/
theorem executes_branch {taken : Prop} [Decidable taken] {target next : Word} (hw : decode w = .instr i)
    (he : exec i s = .next (if taken then s.goTo target else s.goTo next)) :
    Executes w i s (OnlyPc (if taken then target else next)) := by
  refine ⟨hw, _, he, ?_⟩
  split <;> exact onlyPc_goTo s _

end

end Sys2Proof.Machine

open Sys2Proof Sys2Proof.Machine

/-- Settles O16: each finishes by writing its register; the immediate is its field, extended. -/
theorem integerImmediates : Obligations.IntegerImmediates := by
  unfold Obligations.IntegerImmediates
  intro s a b i18 i22
  refine ⟨?_, ?_, ?_, ?_⟩
  · exact executes_finishR (by simp [decode, signed22]) rfl (signedImm_toInt i22)
  · exact executes_finishR (by simp [decode, unsigned22]) rfl (upperImm_toNat i22)
  · exact executes_finishR (by simp [decode, signed18]) rfl (add_eq_ofInt_toInt _ (i18.signExtend 32))
  · exact executes_finishR (by simp [decode, unsigned18]) rfl (congrArg _ (unsignedImm_toNat i18))

/-- Settles O17: each finishes by writing its register; a comparison writes its truth. -/
theorem integerAlu : Obligations.IntegerAlu := by
  unfold Obligations.IntegerAlu
  intro s a b c
  have alu : ∀ {fn : BitVec 10} {i : Instr} {v v' : Word}, decodeAlu (formatR 0x06#6 a b c 0#4 fn) = .instr i →
      exec i s = finishR a v' s → v' = v → Executes (formatR 0x06#6 a b c 0#4 fn) i s (OnlyR a v) :=
    fun hw => executes_finishR ((decode_formatR_alu a b c 0#4 _).trans hw)
  refine ⟨alu ?_ rfl rfl, alu ?_ rfl (sub_eq_ofInt_toNat _ _), alu ?_ rfl rfl, alu ?_ rfl rfl, alu ?_ rfl rfl,
    alu ?_ rfl (truthWord_decide _), alu ?_ rfl (truthWord_decide _)⟩
  all_goals simp [decodeAlu, checkFields_eq_instr]

/-- Settles O18: each goes to the target or to the next word. -/
theorem controlTransfer : Obligations.ControlTransfer := by
  unfold Obligations.ControlTransfer
  intro s a i22 target
  have htarget : branchTarget s i22.toInt = target := branchTarget_toInt s i22
  rw [← htarget]
  refine ⟨⟨?_, _, rfl, onlyPc_goTo s _⟩, executes_branch ?_ rfl, ?_⟩
  · simp [decode, signed22, checkFields_eq_instr]
  · simp [decode, signed22]
  · rw [← ite_not]
    exact executes_branch (by simp [decode, signed22]) rfl

end

section
/-! SUPPORT. Loads and stores: the effective address, an access that passes or fails its range check, and what a store
leaves (R149 to R155). -/

namespace Sys2Proof.Machine

/-- The effective address, modulo 2^32 (R149). -/
theorem effAddr_toInt (s : State) (b : RReg) (imm : BitVec 18) :
    effAddr s b imm.toInt = (BitVec.ofInt 32 ((s.readR b).toNat + (imm.signExtend 32).toInt)).toNat :=
  congrArg BitVec.toNat (add_eq_ofInt_toInt (s.readR b) (imm.signExtend 32))

/-! ## Accesses -/

section
variable {a b : RReg} {f : FReg} {p : PReg} {imm : Int} {s : State}

theorem exec_lw : exec (.lw a b imm) s = attempt [rangeCheck s (effAddr s b imm) 1]
    (fun s => (s.writeR a (s.dmemWord (effAddr s b imm))).advance) s := rfl

theorem exec_flw : exec (.flw f b imm) s = attempt [rangeCheck s (effAddr s b imm) 1]
    (fun s => (s.writeF f (s.dmemWord (effAddr s b imm))).advance) s := rfl

theorem exec_plw : exec (.plw p b imm) s = attempt [rangeCheck s (effAddr s b imm) 2]
    (fun s => (s.writeP p (s.dmemPair (effAddr s b imm))).advance) s := rfl

theorem exec_sw : exec (.sw a b imm) s = attempt [rangeCheck s (effAddr s b imm) 1]
    (fun s => (s.setDmemWord (effAddr s b imm) (s.readR a)).advance) s := rfl

theorem exec_fsw : exec (.fsw f b imm) s = attempt [rangeCheck s (effAddr s b imm) 1]
    (fun s => (s.setDmemWord (effAddr s b imm) (s.readF f)).advance) s := rfl

theorem exec_psw : exec (.psw p b imm) s = attempt [rangeCheck s (effAddr s b imm) 2]
    (fun s => (s.setDmemPair (effAddr s b imm) (s.readP p)).advance) s := rfl

end

section
variable {s : State} {w : Word} {i : Instr} {base count : Nat} {effect : State → State}

/-- An access in range has its effect. -/
theorem executes_access {post : State → State → Prop} (hw : decode w = .instr i)
    (he : exec i s = attempt [rangeCheck s base count] effect s) (h : base + count ≤ s.cfg.dmemWords)
    (hpost : post s (effect s)) : Executes w i s post :=
  ⟨hw, _, he.trans (attempt_of_none (by rw [rangeCheck_eq_none.2 h, firstFault_none, firstFault_nil])), hpost⟩

/-- An access out of range takes `DMEM_RANGE` with the first word that is out of range (R149). -/
theorem executes_access_fault {info : Nat} (hw : decode w = .instr i)
    (he : exec i s = attempt [rangeCheck s base count] effect s) (h : s.cfg.dmemWords < base + count)
    (hinfo : max base s.cfg.dmemWords = info) : Executes w i s (FaultTaken .dmemRange (BitVec.ofNat 32 info)) :=
  ⟨hw, _, he.trans (attempt_of_some (by rw [rangeCheck_of_lt h, hinfo, firstFault_some])), takeFault_faultTaken _ s⟩

end

/-! ## What a store leaves -/

section
variable (s : State) (j : Nat)

@[simp] theorem dmemWord_setDmemWord_same (v : Word) : (s.setDmemWord j v).dmemWord j = v := by
  simp [dmemWord_setDmemWord]

@[simp] theorem dmemWord_setDmemPair_low (v : DWord) : (s.setDmemPair j v).dmemWord j = v.extractLsb' 0 32 := by
  simp [State.setDmemPair, dmemWord_setDmemWord]

@[simp] theorem dmemWord_setDmemPair_high (v : DWord) :
    (s.setDmemPair j v).dmemWord (j + 1) = v.extractLsb' 32 32 := by
  simp [State.setDmemPair]

theorem onlyDmem_advance (m : Memory) : OnlyDmem s { s with dmem := m }.advance :=
  ⟨rfl, fun _ => rfl, fun _ => rfl, fun _ => rfl, fun _ => rfl, sameControl_refl s⟩

/-- What a store of one word does and leaves (R151, R153). -/
theorem storeWord_spec (v : Word) :
    OnlyDmem s (s.setDmemWord j v).advance ∧ SameDmemOutside j 1 s (s.setDmemWord j v).advance ∧
      (s.setDmemWord j v).advance.dmemWord j = v :=
  ⟨onlyDmem_advance s _, dmemByte_setDmemWord_other s j v, by simp⟩

/-- What a store of a pair of words does and leaves (R155). -/
theorem storePair_spec (v : DWord) :
    OnlyDmem s (s.setDmemPair j v).advance ∧ SameDmemOutside j 2 s (s.setDmemPair j v).advance ∧
      (s.setDmemPair j v).advance.dmemWord j = v.extractLsb' 0 32 ∧
      (s.setDmemPair j v).advance.dmemWord (j + 1) = v.extractLsb' 32 32 :=
  ⟨onlyDmem_advance s _, dmemByte_setDmemPair_other s j v, by simp, by simp⟩

end

end Sys2Proof.Machine

open Sys2Proof Sys2Proof.Machine

/-- Settles O21: each is an access that writes one register. -/
theorem loads : Obligations.Loads := by
  unfold Obligations.Loads
  intro s a b f p i18 ea
  have lw : decode (formatI 0x0C#6 a b i18) = .instr (.lw a b i18.toInt) := by simp [decode, signed18]
  have flw : decode (formatI 0x0E#6 f b i18) = .instr (.flw f b i18.toInt) := by simp [decode, signed18]
  have plw : decode (formatI 0x10#6 (phaseField p) b i18) = .instr (.plw p b i18.toInt) := by
    simp [decode, signed18, checkFields_eq_instr]
  refine ⟨effAddr_toInt s b i18, fun h => ⟨?_, ?_⟩, fun h => ?_, fun h => ⟨?_, ?_⟩, fun h => ?_⟩
  · exact executes_access lw exec_lw h (onlyR_writeR s a _)
  · exact executes_access flw exec_flw h (onlyF_writeF s f _)
  · exact executes_access plw exec_plw h (onlyP_writeP s p _)
  · exact executes_access_fault lw exec_lw h (by omega)
  · exact executes_access_fault flw exec_flw h (by omega)
  · exact executes_access_fault plw exec_plw h (by split <;> omega)

/-- Settles O22: each is an access that stores its words. -/
theorem stores : Obligations.Stores := by
  unfold Obligations.Stores
  intro s a b f p i18 ea
  have sw : decode (formatI 0x0D#6 a b i18) = .instr (.sw a b i18.toInt) := by simp [decode, signed18]
  have fsw : decode (formatI 0x0F#6 f b i18) = .instr (.fsw f b i18.toInt) := by simp [decode, signed18]
  have psw : decode (formatI 0x11#6 (phaseField p) b i18) = .instr (.psw p b i18.toInt) := by
    simp [decode, signed18, checkFields_eq_instr]
  refine ⟨effAddr_toInt s b i18, fun h => ⟨?_, ?_⟩, fun h => ?_, fun h => ⟨?_, ?_⟩, fun h => ?_⟩
  · exact executes_access sw exec_sw h (storeWord_spec s ea _)
  · exact executes_access fsw exec_fsw h (storeWord_spec s ea _)
  · exact executes_access psw exec_psw h (storePair_spec s ea _)
  · exact executes_access_fault sw exec_sw h (by omega)
  · exact executes_access_fault fsw exec_fsw h (by omega)
  · exact executes_access_fault psw exec_psw h (by split <;> omega)

end

section
/-! SUPPORT. Steps of a running sequencer that no agent touches: one cycle each (R130), a run of `NOP`s to the end of
command memory (R133), and `HALT` (R134). -/

namespace Sys2Proof.Machine

/-! ## A cycle in `step` and in `CTRL.STEP` -/

section
variable {s : State}

/-- With no turn listed the sequencer has the step (log 4). -/
theorem step_of_no_turns (legal : s.cfg.legal = true) (h : s.turns = []) : step s = sequencerTurn s := by
  rw [step, if_pos legal, nextTurn, h]

/-- A running sequencer with no turn listed and no STOP pending performs one cycle. -/
theorem step_eq_instructionStep (legal : s.cfg.legal = true) (ht : s.turns = []) (hr : s.run = true)
    (hp : s.pendingCtrl = []) : step s = instructionStep s :=
  (step_of_no_turns legal ht).trans (sequencerTurn_running hr hp)

/-- A write of `CTRL.STEP` to a stopped sequencer with no fault performs one cycle (R38). -/
theorem hostWrite_step (hr : s.run = false) (hf : s.faulted = false) :
    hostWrite 4 4 2#32 s = instructionStep { s with halted := false } :=
  (hostWrite_ctrl 2#32 s).trans (stepCommand_of_stopped hr hf)

/-- A write of `CTRL.START` starts a stopped sequencer with no fault (R38). -/
theorem hostWrite_start (hr : s.run = false) (hf : s.faulted = false) :
    hostWrite 4 4 1#32 s = .next { s with run := true, halted := false } :=
  (hostWrite_ctrl 1#32 s).trans (congrArg _ (startSequencer_of_stopped hr hf))

/-- A cycle at a word of command memory is the instruction that it decodes to (R130). -/
theorem instructionStep_of_decode {i : Instr} (inside : s.pc.toNat < s.cfg.imemWords)
    (h : decode (s.imemWord s.pc.toNat) = .instr i) : instructionStep s = exec i s :=
  ((cycleFrom_instructionStep s).2 inside).1 i h

/-- A cycle past the end of command memory takes `FETCH_RANGE` (R301). -/
theorem instructionStep_of_outside (outside : s.cfg.imemWords ≤ s.pc.toNat) :
    instructionStep s = .next (takeFault ⟨.fetchRange, s.pc⟩ s) :=
  if_neg (by simpa [fetchable] using outside)

end

/-! ## A command memory of zeros -/

theorem decode_zero : decode 0#32 = .instr .nop := by decide

theorem decode_halt : decode 0x04000000#32 = .instr .halt := by decide

/-- Command memory is no larger than its window (R7). -/
theorem imemWords_lt {cfg : Params} (legal : cfg.legal = true) : cfg.imemWords < 2 ^ 32 := by
  have := imem_below_dmem legal
  omega

/-- A step that answers a next state, then the rest of the run. -/
theorem run_succ_of_next (M : Host.Core) {s t : M.State} (n : Nat) (h : M.step s = .next t) :
    M.run (n + 1) s = M.run n t := by
  rw [Host.Core.run, h]

/-- The sequencer runs by itself over a command memory of zeros. -/
structure RunsZeros (s : State) : Prop where
  legal : s.cfg.legal = true
  turns : s.turns = []
  run : s.run = true
  pendingCtrl : s.pendingCtrl = []
  zeros : ∀ j < s.cfg.imemWords, s.imemWord j = 0#32

section
variable {s : State}

theorem RunsZeros.advance (h : RunsZeros s) : RunsZeros s.advance :=
  ⟨h.legal, h.turns, h.run, h.pendingCtrl, h.zeros⟩

theorem RunsZeros.step_eq (h : RunsZeros s) : step s = instructionStep s :=
  step_eq_instructionStep h.legal h.turns h.run h.pendingCtrl

/-- Before the end a step moves on to the next word. -/
theorem RunsZeros.step_inside (h : RunsZeros s) (inside : s.pc.toNat < s.cfg.imemWords) : step s = .next s.advance :=
  h.step_eq.trans (instructionStep_of_decode inside ((congrArg decode (h.zeros _ inside)).trans decode_zero))

/-- `n` words before the end of command memory the fault comes after `n` steps (R133). -/
theorem RunsZeros.run_eq (h : RunsZeros s) {n : Nat} (hn : s.pc.toNat + n = s.cfg.imemWords) :
    Host.Core.run core (n + 1) s = .next (takeFault ⟨.fetchRange, BitVec.ofNat 32 s.cfg.imemWords⟩
      (s.goTo (BitVec.ofNat 32 s.cfg.imemWords))) := by
  have bound := imemWords_lt h.legal
  induction n generalizing s with
  | zero =>
    have hpc : s.pc = BitVec.ofNat 32 s.cfg.imemWords := by rw [← hn]; simp
    have fault : step s = .next (takeFault ⟨.fetchRange, s.pc⟩ s) :=
      h.step_eq.trans (instructionStep_of_outside (by omega))
    rw [← hpc]
    exact run_succ_of_next core 0 fault
  | succ n ih =>
    have hpc : s.advance.pc.toNat = s.pc.toNat + 1 := by
      rw [advance_pc]
      bv_omega
    have rest : s.advance.pc.toNat + n = s.advance.cfg.imemWords := by
      rw [hpc, advance_cfg]
      omega
    exact (run_succ_of_next core (n + 1) (h.step_inside (by omega))).trans (ih h.advance rest bound)

end

end Sys2Proof.Machine

open Sys2Proof Sys2Proof.Machine

/-- Settles O9: by what an instruction can do. -/
theorem everyInstructionCompletes : Obligations.EveryInstructionCompletes := by
  unfold Obligations.EveryInstructionCompletes
  exact fun i s => (exec_outcome i s).next

/-- Settles O6: the step is the sequencer's turn, or the cycle that `CTRL.STEP` performs. -/
theorem stepRunsDecodedInstruction : Obligations.StepRunsDecodedInstruction := by
  unfold Obligations.StepRunsDecodedInstruction
  intro s legal
  obtain ⟨outside, inside⟩ := cycleFrom_instructionStep s
  have turn := step_of_no_turns legal
  have cycle := step_eq_instructionStep legal
  refine ⟨⟨outside, inside⟩, fun ht hr => ?_, fun ht hr hp hin => ?_, fun ht hr hp hout => ?_, fun ht hr => ?_,
    fun rest ht hr hf => ?_⟩
  · exact (turn ht).trans (sequencerTurn_pending hr)
  · exact cycle ht hr hp ▸ inside hin
  · exact cycle ht hr hp ▸ outside hout
  · exact (turn ht).trans (sequencerTurn_stopped hr)
  · have hstep : step s = instructionStep { s with turns := rest, halted := false } :=
      (step_of_turn legal ht).trans (hostWrite_step hr hf)
    exact hstep ▸ cycleFrom_instructionStep _

/-- Settles O19: by induction on the words that are left before the end. -/
theorem nopRunsToFetchFault : Obligations.NopRunsToFetchFault := by
  unfold Obligations.NopRunsToFetchFault
  refine ⟨fun s => ⟨decode_zero, _, rfl, onlyPc_advance s⟩, fun s legal ht hr hp hpc zeros => ?_⟩
  have runs : RunsZeros s := ⟨legal, ht, hr, hp, zeros⟩
  exact ⟨_, runs.run_eq (by omega), takeFault_faultTaken _ _⟩

/-- Settles O20: `CTRL.STEP` clears HALTED first, which `HALT` sets anyway. -/
theorem haltStopsAndResumes : Obligations.HaltStopsAndResumes := by
  unfold Obligations.HaltStopsAndResumes
  intro s halted
  have effect : halted s (haltSequencer s).advance :=
    ⟨rfl, rfl, rfl, rfl, sameData_refl s, rfl, rfl, rfl, rfl, rfl, rfl, rfl, rfl, rfl, rfl, rfl⟩
  refine ⟨⟨decode_halt, _, rfl, effect⟩, fun hr hf inside hw => ⟨(haltSequencer s).advance, ?_, effect⟩,
    fun t h hf => ?_⟩
  · have hstep : instructionStep { s with halted := false } = exec .halt { s with halted := false } :=
      instructionStep_of_decode inside ((congrArg decode hw).trans decode_halt)
    exact (hostWrite_step hr hf).trans hstep
  · cases h
    exact ⟨_, hostWrite_start rfl hf, rfl, rfl, rfl⟩

end

section
/-! SUPPORT. A Fixed64 number by its halves (R32): the integer part is the floor, the fraction the rest; and the numbers
that `trunc_64` leaves as they are (R169). -/

namespace Sys2Proof.Machine

/-! ## The halves of a pattern -/

section
variable (p : DWord) (hi lo : Word)

@[simp] theorem intBits_append : intBits (hi ++ lo) = hi :=
  (extract_high hi lo 32 (Nat.le_refl _)).trans (extract_whole hi)

@[simp] theorem fracBits_append : fracBits (hi ++ lo) = lo :=
  (extract_low hi lo 0 (Nat.le_refl _)).trans (extract_whole lo)

/-- The value of a pattern is the signed integer part and the unsigned fraction, in units of 2^-32 (R32). -/
theorem toInt_eq_halves : p.toInt = (intBits p).toInt * 2 ^ 32 + (fracBits p).toNat := by
  have hint : (intBits p).toNat = p.toNat / 2 ^ 32 := by
    rw [intBits, BitVec.extractLsb'_toNat, Nat.shiftRight_eq_div_pow]
    omega
  have hfrac : (fracBits p).toNat = p.toNat % 2 ^ 32 := by
    rw [fracBits, BitVec.extractLsb'_toNat, Nat.shiftRight_zero]
  rw [BitVec.toInt_eq_toNat_cond, BitVec.toInt_eq_toNat_cond, hint, hfrac]
  split <;> split <;> omega

/-- The integer part is the floor (R179). -/
theorem toInt_intBits : (intBits p).toInt = p.toInt / 2 ^ 32 := by
  have := toInt_eq_halves p
  omega

theorem toNat_fracBits : ((fracBits p).toNat : Int) = p.toInt % 2 ^ 32 := by
  have := toInt_eq_halves p
  omega

end

theorem toNat_fracBits_ofNat (n : Nat) : (fracBits (BitVec.ofNat 64 n)).toNat = n % 2 ^ 32 := by
  rw [fracBits, BitVec.extractLsb'_toNat, BitVec.toNat_ofNat, Nat.shiftRight_zero]
  omega

/-! ## Numbers in range -/

/-- A number that 64 bits hold is the value of its pattern. -/
theorem toInt_truncFixed {v : Int} (hlow : -2 ^ 63 ≤ v) (hhigh : v < 2 ^ 63) : (truncFixed v).toInt = v :=
  BitVec.toInt_ofInt_eq_self (by decide) hlow hhigh

/-! ## Conversion of a real (R170) -/

section
variable {num : Int} {den : Nat}

theorem fixedInRange_iff :
    fixedInRange num den = true ↔ -(2 ^ 31 * (den : Int)) ≤ num ∧ num < 2 ^ 31 * (den : Int) := by
  simp [fixedInRange]

/-- The pattern of a real in range holds the floor of the real in units of 2^-32. -/
theorem toInt_fixedOfReal (hden : 0 < den) (hlow : -(2 ^ 31 * (den : Int)) ≤ num)
    (hhigh : num < 2 ^ 31 * (den : Int)) : (fixedOfReal num den).toInt = num * 2 ^ 32 / den := by
  have hpos : (0 : Int) < den := Int.natCast_pos.2 hden
  exact toInt_truncFixed ((Int.le_ediv_iff_mul_le hpos).2 (by omega)) ((Int.ediv_lt_iff_lt_mul hpos).2 (by omega))

/-- A quotient in units of 2^-32 is its floor and a fraction below 1. -/
theorem mul_ediv_eq_floor_add_fraction (hden : 0 < den) :
    num * 2 ^ 32 / (den : Int) = num / den * 2 ^ 32 + num % den * 2 ^ 32 / den ∧
      0 ≤ num % den * 2 ^ 32 / den ∧ num % den * 2 ^ 32 / den < 2 ^ 32 := by
  have hpos : (0 : Int) < den := Int.natCast_pos.2 hden
  have hrest := Int.emod_nonneg num (Int.ne_of_gt hpos)
  have hbound := Int.emod_lt_of_pos num hpos
  have hsplit : num * 2 ^ 32 = num % den * 2 ^ 32 + num / den * 2 ^ 32 * den := by
    rw [Int.mul_right_comm (num / den), ← Int.add_mul, Int.emod_add_ediv_mul]
  refine ⟨?_, Int.ediv_nonneg (by omega) (Int.le_of_lt hpos), (Int.ediv_lt_iff_lt_mul hpos).2 (by omega)⟩
  rw [hsplit, Int.add_mul_ediv_right _ _ (Int.ne_of_gt hpos), Int.add_comm]

end

end Sys2Proof.Machine

open Sys2Proof Sys2Proof.Machine

/-- Settles O34: the pattern holds the floor in units of 2^-32, and its halves are that number's floor and rest. -/
theorem fixedIsFloor : Obligations.FixedIsFloor := by
  unfold Obligations.FixedIsFloor
  intro num den hden hlow hhigh p
  have hpos : (0 : Int) < den := Int.natCast_pos.2 hden
  have hp : p.toInt = num * 2 ^ 32 / den := toInt_fixedOfReal hden hlow hhigh
  have hint : (p.extractLsb' 32 32).toInt = p.toInt / 2 ^ 32 := toInt_intBits p
  have hfrac : ((p.extractLsb' 0 32).toNat : Int) = p.toInt % 2 ^ 32 := toNat_fracBits p
  obtain ⟨hsplit, hzero, hone⟩ := mul_ediv_eq_floor_add_fraction (num := num) hden
  rw [hint, hfrac, hp]
  exact ⟨Int.ediv_mul_le _ (Int.ne_of_gt hpos), Int.lt_ediv_add_one_mul_self _ hpos, by omega, by omega⟩

end

section
/-! SUPPORT. What the phase instructions leave: `P[a]`, or the outcome of their checks (R169 to R183). -/

namespace Sys2Proof.Machine

/-! ## Words and outcomes -/

section
variable {s : State} {w : Word} {i : Instr}

/-- A word is decoded to the well-formed instruction whose word it is. -/
theorem decode_of_encode (hw : encode i = w) (hi : i.wellFormed = true) : decode w = .instr i := hw ▸ decode_encode hi

/-- A word whose instruction finishes by writing `P[a]`; `v` is the value as its rule writes it. -/
theorem executes_finishP {a : PReg} {v v' : DWord} (hw : decode w = .instr i) (he : exec i s = finishP a v' s)
    (hv : v' = v) : Executes w i s (OnlyP a v) :=
  ⟨hw, _, he, hv ▸ onlyP_writeP s a v'⟩

section
variable {checks : List (Option FaultRecord)} {effect : State → State}

/-- An instruction whose checks pass has its effect (R132). -/
theorem executes_attempt {post : State → State → Prop} (hw : decode w = .instr i)
    (he : exec i s = attempt checks effect s) (hn : firstFault checks = none) (hpost : post s (effect s)) :
    Executes w i s post :=
  ⟨hw, _, he.trans (attempt_of_none hn), hpost⟩

/-- An instruction takes the fault of its first check that fails (R302). -/
theorem executes_attempt_fault {cause : Cause} {info : Word} (hw : decode w = .instr i)
    (he : exec i s = attempt checks effect s) (hf : firstFault checks = some ⟨cause, info⟩) :
    Executes w i s (FaultTaken cause info) :=
  ⟨hw, _, he.trans (attempt_of_some hf), takeFault_faultTaken _ s⟩

end

end

/-! ## Checks -/

theorem firstFault_singleton (check : Option FaultRecord) : firstFault [check] = check := by cases check <;> rfl

theorem raiseIf_of_ne_none {bad : Bool} {cause : Cause} {info : Word} (h : raiseIf bad cause info ≠ none) :
    raiseIf bad cause info = some ⟨cause, info⟩ := by
  cases bad
  · exact absurd rfl h
  · rfl

theorem natCast_two_pow (k : Nat) : ((2 ^ k : Nat) : Int) = 2 ^ k := Int.natCast_pow 2 k

/-- The range check of a conversion whose operand counts units of `2 ^ -k` (R170). -/
theorem fixedInRange_two_pow_iff (num : Int) (k : Nat) :
    fixedInRange num (2 ^ k) = true ↔ -(2 ^ 31 * 2 ^ k) ≤ num ∧ num < 2 ^ 31 * 2 ^ k := by
  rw [fixedInRange_iff, natCast_two_pow]

/-- `PFROMF` accepts the finite values in range (R172). -/
theorem fixedCheck32_eq_none_iff (x : Word) : fixedCheck32 x = none ↔
    Finite x ∧ -(2 ^ 31 * 2 ^ 149) ≤ fValue x ∧ fValue x < 2 ^ 31 * 2 ^ 149 := by
  rw [← fixedInRange_two_pow_iff, fixedCheck32, raiseIf_eq_none, Bool.or_eq_false_iff, Bool.or_eq_false_iff,
    Bool.not_eq_false']

theorem fixedCheck32_of_ne_none {x : Word} (h : fixedCheck32 x ≠ none) : fixedCheck32 x = some ⟨.fxRange, x⟩ :=
  raiseIf_of_ne_none h

/-- `PLDD` accepts the finite values in range (R171). -/
theorem fixedCheck64_eq_none_iff (d : DWord) : fixedCheck64 d = none ↔
    dNotFinite d = false ∧ -(2 ^ 31 * 2 ^ 1074) ≤ dValue d ∧ dValue d < 2 ^ 31 * 2 ^ 1074 := by
  rw [← fixedInRange_two_pow_iff, fixedCheck64, raiseIf_eq_none, Bool.or_eq_false_iff, Bool.not_eq_false']

theorem fixedCheck64_of_ne_none {d : DWord} (h : fixedCheck64 d ≠ none) :
    fixedCheck64 d = some ⟨.fxRange, intBits d⟩ :=
  raiseIf_of_ne_none h

/-! ## Values of the phase operations -/

/-- `fx` of an operand that counts units of `2 ^ -k` (R170). -/
theorem fixedOfReal_two_pow (num : Int) (k : Nat) :
    fixedOfReal num (2 ^ k) = BitVec.ofInt 64 (num * 2 ^ 32 / 2 ^ k) := by
  rw [fixedOfReal, natCast_two_pow]
  rfl

/-- `fx` does not depend on the unit in which its operand is counted (R172). -/
theorem mul_ediv_two_pow_add (num : Int) (j k : Nat) :
    num * 2 ^ j * 2 ^ 32 / 2 ^ (k + j) = num * 2 ^ 32 / 2 ^ k := by
  rw [Int.mul_right_comm, Int.pow_add, Int.mul_ediv_mul_of_pos_left _ _ (Int.pow_pos (by decide))]

/-- The mirror image as R178 writes it. -/
theorem mirrorPhase_eq (v b : Int) : mirrorPhase v b = 2 * b * 2 ^ 32 - v := by
  rw [mirrorPhase, scaledInt, Int.mul_assoc]

/-- A word modulo a power of two does not depend on its being read as signed. -/
theorem toInt_emod_two_pow {n k : Nat} (hk : k ≤ n) (x : BitVec n) : x.toInt % 2 ^ k = x.toNat % 2 ^ k := by
  have hdvd : (2 ^ k : Int) ∣ 2 ^ n := ⟨2 ^ (n - k), by rw [← Int.pow_add, Nat.add_sub_cancel' hk]⟩
  have hword : x.toInt % 2 ^ n = x.toNat % 2 ^ n := by
    rw [BitVec.toInt_eq_toNat_bmod]
    exact_mod_cast Int.bmod_emod (x := x.toNat) (m := 2 ^ n)
  rw [← Int.emod_emod_of_dvd _ hdvd, hword, Int.emod_emod_of_dvd _ hdvd]

/-- A phase modulo an integer length: its integer part modulo the length, and its fraction. -/
theorem halves_emod {length fraction : Int} (integer : Int) (hlength : 0 < length) (hzero : 0 ≤ fraction)
    (hone : fraction < 2 ^ 32) :
    (integer * 2 ^ 32 + fraction) % (length * 2 ^ 32) = integer % length * 2 ^ 32 + fraction := by
  have hlow := Int.emod_nonneg integer (Int.ne_of_gt hlength)
  have hhigh := Int.emod_lt_of_pos integer hlength
  have hsplit : integer * 2 ^ 32 + fraction =
      integer % length * 2 ^ 32 + fraction + length * 2 ^ 32 * (integer / length) := by
    rw [Int.mul_right_comm length, Int.add_right_comm, ← Int.add_mul, Int.emod_add_mul_ediv]
  rw [hsplit, Int.add_mul_emod_self_left]
  exact Int.emod_eq_of_lt (by omega) (by omega)

/-- The mask `2 ^ k - 1` leaves the phase modulo `2 ^ k`, negative phases included, as `2 ^ k` divides 2^32 (R176). -/
theorem toInt_maskPhase {k : Nat} (hk : k ≤ 31) (p : DWord) :
    (maskPhase p (BitVec.ofNat 32 (2 ^ k - 1))).toInt = p.toInt % (2 ^ k * 2 ^ 32) := by
  have hpow : 2 ^ k ≤ 2 ^ 31 := Nat.pow_le_pow_right (by decide) hk
  have hrest := Nat.mod_lt (intBits p).toNat (Nat.two_pow_pos k)
  have hmask : (intBits p &&& BitVec.ofNat 32 (2 ^ k - 1)).toNat = (intBits p).toNat % 2 ^ k := by
    rw [BitVec.toNat_and, BitVec.toNat_ofNat, Nat.mod_eq_of_lt (by omega), Nat.and_two_pow_sub_one_eq_mod]
  have hint : (intBits p &&& BitVec.ofNat 32 (2 ^ k - 1)).toInt = (intBits p).toInt % 2 ^ k := by
    rw [toInt_emod_two_pow (by omega), BitVec.toInt_eq_toNat_of_lt (by omega), hmask]
    push_cast
    rfl
  rw [toInt_eq_halves, maskPhase, intBits_append, fracBits_append, hint, toInt_eq_halves p,
    halves_emod _ (Int.pow_pos (by decide)) (by omega) (by omega)]

section
variable {v start stop : Int}

/-- A phase below the end is unchanged (R177). -/
theorem wrapPhase_of_lt (h : v < stop * 2 ^ 32) : wrapPhase v start stop = v := if_neg (Int.not_le.2 h)

/-- A phase at or past the end goes to the start plus its overshoot modulo the span (R177). -/
theorem wrapPhase_of_le (h : stop * 2 ^ 32 ≤ v) :
    wrapPhase v start stop = start * 2 ^ 32 + (v - stop * 2 ^ 32) % ((stop - start) * 2 ^ 32) := if_pos h

/-- A wrapped phase lies in the loop (R177). -/
theorem wrapPhase_mem_loop (hspan : start < stop) (h : stop * 2 ^ 32 ≤ v) :
    start * 2 ^ 32 ≤ wrapPhase v start stop ∧ wrapPhase v start stop < stop * 2 ^ 32 := by
  have hlow := Int.emod_nonneg (v - stop * 2 ^ 32) (b := (stop - start) * 2 ^ 32) (by omega)
  have hhigh := Int.emod_lt_of_pos (v - stop * 2 ^ 32) (b := (stop - start) * 2 ^ 32) (by omega)
  rw [wrapPhase_of_le h]
  exact ⟨by omega, by omega⟩

end

/-! ## Instructions with checks -/

section
variable {s : State} {a b : PReg} {c d : RReg} {f : FReg} {imm : Int}

theorem exec_pwrap : exec (.pwrap a b c d) s =
    attempt [raiseIf (decide ((s.readR d).toInt ≤ (s.readR c).toInt)) .loopRange (s.readR c)]
      (fun s => (s.writeP a (truncFixed (wrapPhase (s.readP b).toInt (s.readR c).toInt (s.readR d).toInt))).advance)
      s := rfl

theorem exec_pldd : exec (.pldd a c imm) s =
    attempt [rangeCheck s (effAddr s c imm) 2, fixedCheck64 (s.dmemPair (effAddr s c imm))]
      (fun s => (s.writeP a (fixedOf64 (s.dmemPair (effAddr s c imm)))).advance) s := rfl

theorem exec_pfromf : exec (.pfromf a f) s =
    attempt [fixedCheck32 (s.readF f)] (fun s => (s.writeP a (fixedOf32 (s.readF f))).advance) s := rfl

end

end Sys2Proof.Machine

open Sys2Proof Sys2Proof.Machine

/-- Settles O28: each finishes by writing `P[a]`. -/
theorem fixed64Arithmetic : Obligations.Fixed64Arithmetic := by
  unfold Obligations.Fixed64Arithmetic
  intro s a b c r
  refine ⟨?_, ?_, ?_, ?_, ?_⟩
  · exact executes_finishP (decode_of_encode rfl rfl) rfl (BitVec.add_def ..)
  · exact executes_finishP (decode_of_encode rfl rfl) rfl (sub_eq_ofInt_toNat _ _)
  · exact executes_finishP (decode_of_encode rfl rfl) rfl rfl
  · exact executes_finishP (decode_of_encode rfl rfl) rfl (congrArg truncFixed (mirrorPhase_eq _ _))
  · exact executes_finishP (decode_of_encode rfl rfl) rfl rfl

/-- Settles O30: both finish by writing `R[a]`, and the integer part is the floor. -/
theorem phaseViews : Obligations.PhaseViews := by
  unfold Obligations.PhaseViews
  intro s a c b
  refine ⟨?_, toInt_intBits _, ?_⟩
  · exact executes_finishR (decode_of_encode rfl rfl) rfl rfl
  · exact executes_finishR (decode_of_encode rfl rfl) rfl (truthWord_decide _)

/-- Settles O29: the value is the integer part under the mask, then the fraction. -/
theorem maskIsModulo : Obligations.MaskIsModulo := by
  unfold Obligations.MaskIsModulo
  intro s a b c
  refine ⟨executes_finishP (decode_of_encode rfl rfl) rfl rfl, fun k hk hmask => ⟨_, rfl, ?_⟩⟩
  rw [readP_advance, readP_writeP_same, hmask]
  exact toInt_maskPhase hk _

/-- Settles O31: the wrapped phase lies in the loop, so its pattern holds it. -/
theorem phaseWrap : Obligations.PhaseWrap := by
  unfold Obligations.PhaseWrap
  intro s a b c d word start stop v
  have hw : decode word = .instr (.pwrap a b c d) := decode_of_encode rfl rfl
  have wraps {post : State → State → Prop} (hspan : start < stop)
      (h : post s (s.writeP a (truncFixed (wrapPhase v start stop))).advance) :
      Executes word (.pwrap a b c d) s post :=
    executes_attempt hw exec_pwrap
      ((firstFault_singleton _).trans (raiseIf_eq_none.2 (decide_eq_false (Int.not_le.2 hspan)))) h
  refine ⟨fun h => ?_, fun hspan hv => wraps hspan ?_, fun hspan hv => wraps hspan ?_⟩
  · exact executes_attempt_fault hw exec_pwrap (by rw [decide_eq_true h, raiseIf_true, firstFault_some])
  · have hvalue : truncFixed v = s.readP b := BitVec.ofInt_toInt
    rw [wrapPhase_of_lt hv, hvalue]
    exact onlyP_writeP s a _
  · obtain ⟨hlow, hhigh⟩ := wrapPhase_mem_loop hspan hv
    have hstart : -2 ^ 31 ≤ start := BitVec.le_toInt (s.readR c)
    have hstop : stop < 2 ^ 31 := BitVec.toInt_lt (x := s.readR d)
    have hvalue : (truncFixed (wrapPhase v start stop)).toInt = wrapPhase v start stop :=
      toInt_truncFixed (by omega) (by omega)
    rw [readP_advance, readP_writeP_same, hvalue]
    refine ⟨?_, wrapPhase_of_le hv, hlow, hhigh⟩
    rw [wrapPhase_of_le hv]
    exact onlyP_writeP s a _

/-- Settles O33: the checks pass on the operands in range, and the accepted value is the floor of R170. -/
theorem fixedConversions : Obligations.FixedConversions := by
  unfold Obligations.FixedConversions
  intro s a b f i18 ea pldd d dOk pfromf x xOk
  have hpldd : decode pldd = .instr (.pldd a b i18.toInt) := by
    have hw : pldd = formatI 0x12#6 (phaseField a) b i18 := rfl
    simp [hw, decode, signed18, checkFields_eq_instr]
  have hpfromf : decode pfromf = .instr (.pfromf a f) := decode_of_encode rfl rfl
  have hd : fixedCheck64 d = none ↔ dOk := fixedCheck64_eq_none_iff d
  have hx : fixedCheck32 x = none ↔ xOk := fixedCheck32_eq_none_iff x
  refine ⟨effAddr_toInt s b i18, fun h => ?_, fun h hbad => ?_, fun h hok => ?_, fun hbad => ?_, fun hok => ?_,
    fun h => ?_⟩
  · have hinfo : max ea s.cfg.dmemWords = if s.cfg.dmemWords ≤ ea then ea else ea + 1 := by split <;> omega
    rw [← hinfo]
    exact executes_attempt_fault hpldd exec_pldd (by rw [rangeCheck_of_lt h, firstFault_some])
  · have hinfo : intBits d = s.dmemWord (ea + 1) := intBits_append _ _
    have hcheck := fixedCheck64_of_ne_none (mt hd.1 hbad)
    rw [← hinfo]
    refine executes_attempt_fault hpldd exec_pldd ?_
    rw [rangeCheck_eq_none.2 h, firstFault_none, firstFault_singleton]
    exact hcheck
  · refine executes_attempt hpldd exec_pldd ?_ ?_
    · rw [rangeCheck_eq_none.2 h, firstFault_none, firstFault_singleton]
      exact hd.2 hok
    · rw [← fixedOfReal_two_pow]
      exact onlyP_writeP s a _
  · exact executes_attempt_fault hpfromf exec_pfromf
      ((firstFault_singleton _).trans (fixedCheck32_of_ne_none (mt hx.1 hbad)))
  · refine executes_attempt hpfromf exec_pfromf ((firstFault_singleton _).trans (hx.2 hok)) ?_
    rw [← fixedOfReal_two_pow]
    exact onlyP_writeP s a _
  · rw [← h]
    exact (mul_ediv_two_pow_add (fValue x) 925 149).symm

end

section
/-! SUPPORT. The word of a magnitude rounded toward zero (R15), and the fraction of a phase as a float (R180). -/

namespace Sys2Proof.Machine

/-! ## Words rounded toward zero -/

theorem truncatedBits_lt_infBits (num den : Nat) : truncatedBits num den < infBits :=
  Nat.lt_of_le_of_lt (Nat.min_le_right _ _) (by decide)

theorem finite_roundToZero (negative : Bool) (num den : Nat) : Finite (roundToZero negative num den) :=
  finite_fPack negative (truncatedBits_lt_infBits num den)

/-- The value of a finite pattern with sign bit 0 is its magnitude. -/
theorem fValue_fPack_false {bits : Nat} (h : bits < infBits) : fValue (fPack false bits) = patternUnits bits := by
  rw [fValue, fSign_fPack, fUnits_fPack _ (Nat.lt_trans h infBits_lt)]
  rfl

theorem fValue_roundToZero (num den : Nat) :
    fValue (roundToZero false num den) = patternUnits (truncatedBits num den) :=
  fValue_fPack_false (truncatedBits_lt_infBits num den)

theorem fValue_roundToZero_nonneg (num den : Nat) : 0 ≤ fValue (roundToZero false num den) :=
  fValue_roundToZero num den ▸ Int.natCast_nonneg _

theorem fValue_roundToZero_le (num : Nat) : fValue (roundToZero false num 1) ≤ num := by
  have hle := (le_floorBits_iff Nat.one_pos).1 (Nat.min_le_left (floorBits num 1) (infBits - 1))
  rw [fValue_roundToZero, truncatedBits_eq_min]
  omega

/-- No finite value that is not above the magnitude lies above the rounded one. -/
theorem le_fValue_roundToZero {num : Nat} {y : Word} (hy : Finite y) (h : fValue y ≤ num) :
    fValue y ≤ fValue (roundToZero false num 1) := by
  cases hs : fSign y with
  | true =>
    have hneg : fValue y = -(fUnits y : Int) := if_pos hs
    have hpos := fValue_roundToZero_nonneg num 1
    omega
  | false =>
    have hvalue : fValue y = patternUnits (fMagBits y) := if_neg (by simp [hs])
    rw [hvalue] at h ⊢
    have hfloor : fMagBits y ≤ floorBits num 1 := (le_floorBits_iff Nat.one_pos).2 (by omega)
    have hbits : fMagBits y ≤ truncatedBits num 1 :=
      Nat.le_min.2 ⟨hfloor, Nat.le_sub_one_of_lt ((finite_iff_fMagBits y).1 hy)⟩
    rw [fValue_roundToZero]
    exact Int.ofNat_le.2 (patternUnits_le_iff.2 hbits)

/-- A magnitude of 24 significant bits is a finite value, so rounding keeps it. -/
theorem fValue_roundToZero_of_significand {m e : Nat} (hm : m ≤ 2 ^ 24) (he : e ≤ 252) :
    fValue (roundToZero false (m * 2 ^ e) 1) = (m * 2 ^ e : Nat) := by
  obtain ⟨hfinite, hunits⟩ := nearestBits_of_significand hm he
  have hvalue := fValue_fPack_false hfinite
  rw [hunits] at hvalue
  refine Int.le_antisymm (fValue_roundToZero_le _) ?_
  rw [← hvalue]
  exact le_fValue_roundToZero (finite_fPack false hfinite) (Int.le_of_eq hvalue)

theorem roundToZero_zero : roundToZero false 0 1 = 0#32 := by decide

/-- The greatest fraction stays below 1 (R180). -/
theorem roundToZero_max_fraction : roundToZero false (0xFFFFFFFF * 2 ^ 117) 1 = 0x3F7FFFFF#32 := by decide

end Sys2Proof.Machine

/-! In a namespace of its own, because the model's function has this name as well. -/
namespace Sys2Proof.Laws

open Sys2Proof Sys2Proof.Machine

/-- Settles O32: the written word is the fraction in units of 2^-149, rounded toward zero. -/
theorem fracFloat : Obligations.FracFloat := by
  unfold Obligations.FracFloat
  intro s a b fraction
  let x := roundToZero false (fraction * 2 ^ 117) 1
  have hread : (s.writeF a x).advance.readF a = x := readF_writeF_same s a x
  have hlt : fraction < 2 ^ 32 := BitVec.isLt _
  have hle : fValue x ≤ fraction * 2 ^ 117 := fValue_roundToZero_le (fraction * 2 ^ 117)
  refine ⟨decode_of_encode rfl rfl, (s.writeF a x).advance, rfl, ?_⟩
  dsimp only
  rw [hread]
  refine ⟨onlyF_writeF s a x, finite_roundToZero .., fSign_fPack false _, fValue_roundToZero_nonneg .., by omega, hle,
    fun y hy h => le_fValue_roundToZero hy h, fun h => ?_, fun h => ?_, fun h => ?_⟩
  · exact fValue_roundToZero_of_significand (Nat.le_of_lt h) (by decide)
  · simp only [x, h, Nat.zero_mul, roundToZero_zero]
  · simp only [x, h, roundToZero_max_fraction]

end Sys2Proof.Laws
end

section
/-! SUPPORT. Repeated addition to a phase (R183): two writes of one register are the last of them, so a run of `PADD`
leaves one write of its sum. -/

namespace Sys2Proof.Machine

section
variable (s : State) (a : PReg)

theorem writeP_readP : s.writeP a (s.readP a) = s := by
  have hp : s.p.setIfInBounds a.toNat (s.readP a) = s.p := by
    ext i hi
    rw [Vector.getElem_setIfInBounds]
    split
    · subst_vars; rfl
    · rfl
  rw [State.writeP, hp]

theorem writeP_writeP (v v' : DWord) : (s.writeP a v).writeP a v' = s.writeP a v' := by
  simp only [State.writeP, Vector.setIfInBounds_setIfInBounds]

end

/-- The first of `n + 1` performances, then the rest. -/
theorem execTimes_succ_of_next {i : Instr} {s t : State} (n : Nat) (h : exec i s = .next t) :
    execTimes i (n + 1) s = execTimes i n t := by
  rw [execTimes, h]

/-- What `n` performances of `PADD` leave: `n` times the differential added, and `PC` moved by `n`. -/
theorem execTimes_padd {a c : PReg} (h : c ≠ a) (n : Nat) (s : State) :
    execTimes (.padd a a c) n s =
      .next ((s.writeP a (s.readP a + BitVec.ofNat 64 n * s.readP c)).goTo (s.pc + BitVec.ofNat 32 n)) := by
  induction n generalizing s with
  | zero =>
    rw [BitVec.zero_mul, BitVec.add_zero, writeP_readP, BitVec.add_zero]
    rfl
  | succ n ih =>
    let t := (s.writeP a (s.readP a + s.readP c)).advance
    have hstep : execTimes (.padd a a c) (n + 1) s = execTimes (.padd a a c) n t := execTimes_succ_of_next n rfl
    have hsum : t.readP a = s.readP a + s.readP c := readP_writeP_same s a _
    have hdelta : t.readP c = s.readP c := readP_writeP_other s _ h
    have hwrite (v : DWord) (target : Word) : (t.writeP a v).goTo target = (s.writeP a v).goTo target :=
      congrArg (·.goTo target) (writeP_writeP s a (s.readP a + s.readP c) v)
    have hpc : t.pc + BitVec.ofNat 32 n = s.pc + BitVec.ofNat 32 (n + 1) := by
      rw [advance_pc, writeP_pc, BitVec.ofNat_add, BitVec.add_assoc, BitVec.add_comm 1#32]
    have hvalue : s.readP a + s.readP c + BitVec.ofNat 64 n * s.readP c =
        s.readP a + BitVec.ofNat 64 (n + 1) * s.readP c := by
      rw [BitVec.ofNat_add, BitVec.add_mul, BitVec.one_mul, BitVec.add_assoc, BitVec.add_comm (s.readP c)]
    rw [hstep, ih t, hwrite, hsum, hdelta, hpc, hvalue]

end Sys2Proof.Machine

open Sys2Proof Sys2Proof.Machine

/-- Settles O35: by induction on the additions; the fraction of the sum is the sum modulo 2^32. -/
theorem repeatedPadd : Obligations.RepeatedPadd := by
  unfold Obligations.RepeatedPadd
  intro n s hzero
  let total := BitVec.ofNat 64 (n * (s.readP 1#3).toNat)
  have hsum : s.readP 0#3 + BitVec.ofNat 64 n * s.readP 1#3 = total := by
    simp only [total, hzero, BitVec.zero_add, BitVec.ofNat_mul, BitVec.ofNat_toNat, BitVec.setWidth_eq]
  let t := (s.writeP 0#3 total).goTo (s.pc + BitVec.ofNat 32 n)
  have hread : t.readP 0#3 = total := readP_writeP_same s 0#3 total
  refine ⟨t, ?_, hread, ?_, fun k hk => readP_writeP_other s _ hk, rfl, fun _ => rfl, fun _ => rfl, fun _ => rfl,
    fun _ => rfl, sameControl_refl s⟩
  · simp only [t, ← hsum]
    exact execTimes_padd (by decide) n s
  · rw [hread, fracFloat, toNat_fracBits_ofNat]

end

section
/-! SUPPORT. The ramp instructions (R200, R201, R203, R205): what a ramp leaves in data memory, and their checks in
order. -/

namespace Sys2Proof.Machine

/-! ## Vector instructions -/

section
variable {count : Nat} {checks : List (Option FaultRecord)} {effect : State → State} {s : State} {w : Word} {i : Instr}

/-- A word whose instruction is a vector operation with a count that is not 0 and its checks passed has its effect. -/
theorem executes_vectorOp {post : State → State → Prop} (hw : decode w = .instr i) (hc : 0 < count)
    (he : exec i s = vectorOp count checks effect s) (hn : firstFault checks = none) (hpost : post s (effect s)) :
    Executes w i s post :=
  executes_attempt hw (he.trans (if_neg (Nat.ne_of_gt hc))) hn hpost

/-- With a count that is not 0 it takes the fault of its first check that fails. -/
theorem executes_vectorOp_fault {cause : Cause} {info : Word} (hw : decode w = .instr i) (hc : 0 < count)
    (he : exec i s = vectorOp count checks effect s) (hf : firstFault checks = some ⟨cause, info⟩) :
    Executes w i s (FaultTaken cause info) :=
  executes_attempt_fault hw (he.trans (if_neg (Nat.ne_of_gt hc))) hf

/-- Its first check being the range check of its target, a target that leaves data memory is a fault (R76, R200). -/
theorem executes_vectorOp_dmemRange {base : Nat} (hw : decode w = .instr i) (hc : 0 < count)
    (he : exec i s = vectorOp count (rangeCheck s base count :: checks) effect s)
    (hout : s.cfg.dmemWords < base + count) :
    Executes w i s (FaultTaken .dmemRange (BitVec.ofNat 32 (max base s.cfg.dmemWords))) :=
  executes_vectorOp_fault hw hc he (by rw [rangeCheck_of_lt hout, firstFault_some])

end

/-! ## The words of a ramp -/

/-- From `s` to `t` a ramp of the elements `g` and then `last` was written to the `n` words from `base`, and nothing
else changed but `PC` (R201, R205). -/
structure RampWritten (g : Nat → Word) (last : Word) (base n : Nat) (s t : State) : Prop where
  onlyDmem : OnlyDmem s t
  outside : SameDmemOutside base n s t
  element : ∀ i, i + 1 < n → t.dmemWord (base + i) = g i
  final : t.dmemWord (base + n - 1) = last

theorem rampWritten_rampMemory (g : Nat → Word) (last : Word) (base : Nat) {n : Nat} (hn : 0 < n) (s : State) :
    RampWritten g last base n s { s with dmem := rampMemory g last base n s.dmem }.advance where
  onlyDmem := onlyDmem_advance s _
  outside := fun b h => memByte_rampMemory_other g last base n s.dmem b hn h
  element := fun i hi => by
    rw [dmemWord_advance, State.dmemWord, memWord_rampMemory, if_neg (by omega), if_pos (by omega),
      Nat.add_sub_cancel_left]
  final := by
    rw [dmemWord_advance, State.dmemWord, memWord_rampMemory, if_pos (by omega)]

/-- Each element of a geometric ramp is the one before it times the ratio (R205). -/
theorem RampWritten.element_succ {first ratio last : Word} {base n i : Nat} {s t : State}
    (h : RampWritten (fun i => mulRampValue first ratio (i + 1)) last base n s t) (hi : i + 2 < n) :
    t.dmemWord (base + i + 1) = fmul (t.dmemWord (base + i)) ratio := by
  rw [Nat.add_assoc, h.element (i + 1) hi, h.element i (Nat.lt_of_succ_lt hi), mulRampValue]

/-! ## The instructions -/

section
variable {s : State} {a d : RReg} {b c : FReg}

/-- `VRAMPA` with a target in range writes the additive ramp (R201). -/
theorem executes_vrampa (hn : 0 < s.unsignedR d) (hr : s.unsignedR a + s.unsignedR d ≤ s.cfg.dmemWords) :
    Executes (formatR 0x20#6 a b c d 0#10) (.vrampa a b c d) s
      (RampWritten (addRampElement (s.readF b) (s.readF c) (s.unsignedR d)) (s.readF c)
        (s.unsignedR a) (s.unsignedR d)) :=
  executes_vectorOp (decode_of_encode rfl rfl) hn rfl (by rw [rangeCheck_eq_none.2 hr]; rfl)
    (rampWritten_rampMemory _ _ _ hn s)

theorem rampUndefined_eq_false_iff (x : Word) : rampUndefined x = false ↔ Finite x :=
  Bool.or_eq_false_iff

/-- `VRAMPM` with a target in range and finite endpoints of one sign writes the geometric ramp (R205). -/
theorem executes_vrampm (hn : 0 < s.unsignedR d) (hr : s.unsignedR a + s.unsignedR d ≤ s.cfg.dmemWords)
    (hb : Finite (s.readF b)) (hc : Finite (s.readF c)) (hs : fSign (s.readF b) = fSign (s.readF c)) :
    let first := clampToFloor s.cfg.rampFloor (s.readF b)
    let final := clampToFloor s.cfg.rampFloor (s.readF c)
    Executes (formatR 0x20#6 a b c d 1#10) (.vrampm a b c d) s
      (RampWritten (fun i => mulRampValue first (rampRatio s.cfg.ratio first final (s.unsignedR d)) (i + 1)) final
        (s.unsignedR a) (s.unsignedR d)) :=
  executes_vectorOp (decode_of_encode rfl rfl) hn rfl
    (by
      rw [rangeCheck_eq_none.2 hr, (rampUndefined_eq_false_iff _).2 hb, (rampUndefined_eq_false_iff _).2 hc, hs,
        bne_self_eq_false]
      rfl)
    (rampWritten_rampMemory _ _ _ hn s)

/-- An endpoint that is a NaN or an infinity is a fault, once the target is in range (R205). -/
theorem executes_vrampm_rampDomain (hn : 0 < s.unsignedR d) (hr : s.unsignedR a + s.unsignedR d ≤ s.cfg.dmemWords)
    (h : ¬ (Finite (s.readF b) ∧ Finite (s.readF c))) :
    Executes (formatR 0x20#6 a b c d 1#10) (.vrampm a b c d) s (FaultTaken .rampDomain 0#32) := by
  have hbad : (rampUndefined (s.readF b) || rampUndefined (s.readF c)) = true := by
    rwa [← Bool.not_eq_false, Bool.or_eq_false_iff, rampUndefined_eq_false_iff, rampUndefined_eq_false_iff]
  refine executes_vectorOp_fault (decode_of_encode rfl rfl) hn rfl ?_
  rw [rangeCheck_eq_none.2 hr, hbad]
  rfl

/-- Finite endpoints of different signs are a fault, once the target is in range (R205). -/
theorem executes_vrampm_rampSign (hn : 0 < s.unsignedR d) (hr : s.unsignedR a + s.unsignedR d ≤ s.cfg.dmemWords)
    (hb : Finite (s.readF b)) (hc : Finite (s.readF c)) (hs : fSign (s.readF b) ≠ fSign (s.readF c)) :
    Executes (formatR 0x20#6 a b c d 1#10) (.vrampm a b c d) s (FaultTaken .rampSign 0#32) := by
  refine executes_vectorOp_fault (decode_of_encode rfl rfl) hn rfl ?_
  rw [rangeCheck_eq_none.2 hr, (rampUndefined_eq_false_iff _).2 hb, (rampUndefined_eq_false_iff _).2 hc,
    (bne_iff_ne).2 hs]
  rfl

end

/-- The clamp of R203 by the fields of the pattern and of the floor. -/
theorem clampToFloor_eq_ite (floor x : Word) :
    clampToFloor floor x =
      if fge (x &&& 0x7FFFFFFF#32) floor then x else BitVec.ofBool x.msb ++ floor.extractLsb' 0 31 := by
  rw [clampToFloor, fabs_eq_and, fPack, fMagBits, BitVec.ofNat_toNat, BitVec.setWidth_eq, fSign]

end Sys2Proof.Machine

open Sys2Proof Sys2Proof.Machine

/-- Settles O36: count 0, a target out of range, and the ramp written. -/
theorem additiveRamp : Obligations.AdditiveRamp := by
  unfold Obligations.AdditiveRamp
  intro s a b c d word n t0 first final
  have hw : decode word = .instr (.vrampa a b c d) := decode_of_encode rfl rfl
  refine ⟨fun hn => ?_, fun hn hout => ?_, fun hn hr => ?_⟩
  · exact executes_vectorOp_of_zero hw hn rfl
  · exact executes_vectorOp_dmemRange hw hn rfl hout
  · obtain ⟨-, t, he, ramp⟩ := executes_vrampa (b := b) (c := c) hn hr
    exact ⟨hw, t, he, ramp.onlyDmem, ramp.outside, ramp.element, ramp.final⟩

/-- Settles O37: the checks one by one; each element is the running value of R205 after one more product. -/
theorem multiplicativeRamp : Obligations.MultiplicativeRamp := by
  unfold Obligations.MultiplicativeRamp
  intro s a b c d word n t0 x0 x1 clamp ratio
  have hw : decode word = .instr (.vrampm a b c d) := decode_of_encode rfl rfl
  have hclamp : clamp = clampToFloor s.cfg.rampFloor := funext fun x => (clampToFloor_eq_ite _ x).symm
  refine ⟨fun hn => ?_, fun hn hout => ?_, fun hn hr hbad => ?_, fun hn hr hb hc hs => ?_, fun hn hr hb hc hs => ?_⟩
  · exact executes_vectorOp_of_zero hw hn rfl
  · exact executes_vectorOp_dmemRange hw hn rfl hout
  · exact executes_vrampm_rampDomain hn hr hbad
  · exact executes_vrampm_rampSign hn hr hb hc hs
  · obtain ⟨-, t, he, ramp⟩ := executes_vrampm (a := a) hn hr hb hc hs
    simp only [ratio, hclamp]
    refine ⟨hw, t, he, ramp.onlyDmem, ramp.outside, ramp.element 0, fun i => ramp.element_succ,
      ramp.final⟩

end

section
/-! SUPPORT. The rounding of R15 and the primitives of R16 keep the order of R17: a signed real rounds to an order key,
greater reals to greater keys. -/

namespace Sys2Proof.Machine

/-! ## Signed magnitudes -/

/-- A magnitude with a sign. -/
def withSign (negative : Bool) (n : Nat) : Int := if negative then -(n : Int) else n

theorem fValue_eq_withSign (x : Word) : fValue x = withSign (fSign x) (fUnits x) := rfl

theorem orderKey_eq_withSign (x : Word) : orderKey x = withSign (fSign x) (fMagBits x) := rfl

theorem orderKey_fPack (negative : Bool) {bits : Nat} (h : bits < 2 ^ 31) :
    orderKey (fPack negative bits) = withSign negative bits := by
  rw [orderKey_eq_withSign, fSign_fPack, fMagBits_fPack _ h]

theorem withSign_natAbs (v : Int) : withSign (decide (v < 0)) v.natAbs = v := by
  by_cases h : v < 0
  · simp only [h, decide_true, withSign, if_true]
    omega
  · simp only [h, decide_false, withSign, Bool.false_eq_true, if_false]
    omega

theorem natAbs_withSign (negative : Bool) (n : Nat) : (withSign negative n).natAbs = n := by
  cases negative
  · exact Int.natAbs_natCast n
  · exact (Int.natAbs_neg _).trans (Int.natAbs_natCast n)

theorem withSign_mul_withSign (p q : Bool) (m n : Nat) :
    withSign p m * withSign q n = withSign (p != q) (m * n) := by
  have hcast := (Int.natCast_mul m n).symm
  cases p <;> cases q
  · exact hcast
  · exact (Int.mul_neg _ _).trans (congrArg Neg.neg hcast)
  · exact (Int.neg_mul _ _).trans (congrArg Neg.neg hcast)
  · exact (Int.neg_mul_neg _ _).trans hcast

theorem withSign_mul_natCast (p : Bool) (m n : Nat) : withSign p m * n = withSign p (m * n) :=
  withSign_mul_withSign p false m n |>.trans (by rw [Bool.bne_false])

/-! ## Rounding keeps the order (R15) -/

theorem nearestBits_le_infBits (num den : Nat) : nearestBits num den ≤ infBits := Nat.min_le_right _ _

theorem nearestBits_lt (num den : Nat) : nearestBits num den < 2 ^ 31 :=
  Nat.lt_of_le_of_lt (nearestBits_le_infBits num den) infBits_lt

theorem isNaN_roundNearest (negative : Bool) (num den : Nat) : isNaN (roundNearest negative num den) = false := by
  rw [isNaN_eq_false_iff, roundNearest, fMagBits_fPack _ (nearestBits_lt num den)]
  exact nearestBits_le_infBits num den

theorem finite_roundNearest_iff (negative : Bool) (num den : Nat) :
    Finite (roundNearest negative num den) ↔ nearestBits num den < infBits := by
  rw [finite_iff_fMagBits, roundNearest, fMagBits_fPack _ (nearestBits_lt num den)]

theorem fUnits_roundNearest (negative : Bool) (num den : Nat) :
    fUnits (roundNearest negative num den) = patternUnits (nearestBits num den) :=
  fUnits_fPack negative (nearestBits_lt num den)

/-- A greater magnitude has no smaller rounding: between the same two neighbours the midpoint decides. -/
theorem nearestBits_mono {den : Nat} (hden : 0 < den) {m n : Nat} (h : m ≤ n) :
    nearestBits m den ≤ nearestBits n den := by
  have hfloor : floorBits m den ≤ floorBits n den :=
    (le_floorBits_iff hden).2 (Nat.le_trans (patternUnits_floorBits_le m den) h)
  have hmin : ∀ {a b : Nat}, a ≤ b → min a infBits ≤ min b infBits := fun hab =>
    Nat.le_min.2 ⟨Nat.le_trans (Nat.min_le_left _ _) hab, Nat.min_le_right _ _⟩
  rcases nearestBits_cases m den with ⟨hm, -, -⟩ | ⟨hm, hmSide, hmTie⟩ <;>
    rcases nearestBits_cases n den with ⟨hn, hnSide, hnTie⟩ | ⟨hn, -, -⟩ <;> rw [hm, hn]
  · exact hmin hfloor
  · exact hmin (Nat.le_succ_of_le hfloor)
  · refine hmin (Nat.lt_of_le_of_ne hfloor fun heq => ?_)
    have hsum : neighbourSum m den = neighbourSum n den := by rw [neighbourSum, neighbourSum, heq]
    rw [hsum, heq] at hmTie
    rw [hsum] at hmSide
    generalize neighbourSum n den = sum at *
    generalize floorBits n den = floor at *
    omega
  · exact hmin (Nat.succ_le_succ hfloor)

/-- The order key of the real `v / den` units rounded to nearest (R15, R17). -/
def roundKey (v : Int) (den : Nat) : Int := withSign (decide (v < 0)) (nearestBits v.natAbs den)

theorem nearestBits_zero {den : Nat} (hden : 0 < den) : nearestBits 0 den = 0 :=
  nearestBits_exact hden (bits := 0) (by decide) (Nat.zero_mul den).symm

theorem roundKey_withSign {den : Nat} (hden : 0 < den) (negative : Bool) (n : Nat) :
    roundKey (withSign negative n) den = withSign negative (nearestBits n den) := by
  rcases Nat.eq_zero_or_pos n with rfl | hn
  · rw [nearestBits_zero hden]
    cases negative <;> exact congrArg (withSign _ ·) (nearestBits_zero hden)
  · have hsign : decide (withSign negative n < 0) = negative := by
      cases negative
      · exact decide_eq_false (Int.not_lt.2 (Int.natCast_nonneg n))
      · exact decide_eq_true (Int.neg_neg_of_pos (Int.natCast_pos.2 hn))
    rw [roundKey, hsign, natAbs_withSign]

theorem orderKey_roundNearest {den : Nat} (hden : 0 < den) (negative : Bool) (num : Nat) :
    orderKey (roundNearest negative num den) = roundKey (withSign negative num) den := by
  rw [roundNearest, orderKey_fPack _ (nearestBits_lt num den), roundKey_withSign hden]

theorem roundKey_mono {den : Nat} (hden : 0 < den) {v w : Int} (h : v ≤ w) : roundKey v den ≤ roundKey w den := by
  have hup : 0 ≤ v → nearestBits v.natAbs den ≤ nearestBits w.natAbs den :=
    fun hv => nearestBits_mono hden (by omega)
  have hdown : w < 0 → nearestBits w.natAbs den ≤ nearestBits v.natAbs den :=
    fun hw => nearestBits_mono hden (by omega)
  simp only [roundKey, withSign, decide_eq_true_eq]
  split <;> split <;> omega

/-- The value of a finite word rounds to its order key. -/
theorem roundKey_fValue_mul {x : Word} (hx : Finite x) {den : Nat} (hden : 0 < den) :
    roundKey (fValue x * den) den = orderKey x := by
  have hexact : nearestBits (fUnits x * den) den = fMagBits x :=
    nearestBits_exact hden ((finite_iff_fMagBits x).1 hx) rfl
  rw [fValue_eq_withSign, withSign_mul_natCast, roundKey_withSign hden, hexact, orderKey_eq_withSign]

/-! ## The primitives keep the order (R16) -/

/-- The sum of two finite values is no NaN, and its key is that of the rounded sum. -/
theorem orderKey_fadd {x y : Word} (hx : Finite x) (hy : Finite y) :
    isNaN (fadd x y) = false ∧ orderKey (fadd x y) = roundKey (fValue x + fValue y) 1 := by
  rw [fadd_of_finite hx hy]
  split
  next hzero =>
    rw [hzero]
    exact ⟨(finite_fPack _ (by decide)).1, by
      rw [orderKey_fPack _ (by decide), roundKey, Int.natAbs_zero, nearestBits_zero Nat.one_pos]
      cases fSign x && fSign y <;> rfl⟩
  next =>
    exact ⟨isNaN_roundNearest _ _ _, by rw [orderKey_roundNearest Nat.one_pos, withSign_natAbs]⟩

theorem orderKey_fmul {x y : Word} (hx : Finite x) (hy : Finite y) :
    isNaN (fmul x y) = false ∧ orderKey (fmul x y) = roundKey (fValue x * fValue y) (2 ^ 149) := by
  rw [fmul_of_finite hx hy, fValue_eq_withSign, fValue_eq_withSign, withSign_mul_withSign]
  exact ⟨isNaN_roundNearest _ _ _, orderKey_roundNearest (Nat.two_pow_pos _) _ _⟩

/-- The sign of a positive value, and its units. -/
theorem fSign_of_fValue_pos {x : Word} (h : 0 < fValue x) : fSign x = false ∧ fUnits x ≠ 0 ∧ fValue x = fUnits x := by
  rw [fValue] at h ⊢
  split at h
  · omega
  · next hs =>
    rw [if_neg hs]
    exact ⟨Bool.eq_false_iff.2 hs, by omega, rfl⟩

theorem orderKey_fdiv {x y : Word} (hx : Finite x) (hy : Finite y) (h : 0 < fValue y) :
    isNaN (fdiv x y) = false ∧ orderKey (fdiv x y) = roundKey (fValue x * (2 ^ 149 : Nat)) (fUnits y) := by
  obtain ⟨hs, hunits, -⟩ := fSign_of_fValue_pos h
  rw [fdiv_of_finite hx hy hunits, hs, Bool.bne_false, fValue_eq_withSign, withSign_mul_natCast]
  exact ⟨isNaN_roundNearest _ _ _, orderKey_roundNearest (Nat.pos_of_ne_zero hunits) _ _⟩

theorem orderKey_of_isInf {x : Word} (h : isInf x = true) : orderKey x = infBits ∨ orderKey x = -(infBits : Int) := by
  rw [orderKey, (isInf_iff_fMagBits x).1 h]
  split
  · exact .inr rfl
  · exact .inl rfl

theorem orderKey_lt_of_finite {x : Word} (h : Finite x) : -(infBits : Int) < orderKey x ∧ orderKey x < infBits := by
  rw [finite_iff_fMagBits] at h
  rw [orderKey]
  split <;> omega

theorem isNaN_of_fle {x y : Word} (h : fle x y = true) : isNaN x = false ∧ isNaN y = false := by
  simp only [fle, Bool.and_eq_true, Bool.not_eq_true'] at h
  exact h.1

theorem fle_iff_fValue {x y : Word} (hx : Finite x) (hy : Finite y) : fle x y = true ↔ fValue x ≤ fValue y := by
  rw [fle_iff_orderKey hx.1 hy.1, fValue_le_iff_orderKey]

theorem fle_refl {x : Word} (h : isNaN x = false) : fle x x = true := (fle_iff_orderKey h h).2 (Int.le_refl _)

/-- A function that keeps the order of the finite values and leaves the infinities as they are keeps the order. -/
theorem fle_map {f : Word → Word} (hinf : ∀ x, isInf x = true → f x = x)
    (hfinite : ∀ x y, Finite x → Finite y → fle x y = true → fle (f x) (f y) = true) {x y : Word}
    (h : fle x y = true) : fle (f x) (f y) = true := by
  have hNaN : ∀ z, isNaN z = false → isNaN (f z) = false := fun z hz => by
    rcases finite_or_isInf hz with hz' | hz'
    · exact (isNaN_of_fle (hfinite z z hz' hz' (fle_refl hz))).1
    · rwa [hinf z hz']
  obtain ⟨hx, hy⟩ := isNaN_of_fle h
  have hrangeX := orderKey_range (hNaN x hx)
  have hrangeY := orderKey_range (hNaN y hy)
  rw [fle_iff_orderKey (hNaN x hx) (hNaN y hy)]
  rw [fle_iff_orderKey hx hy] at h
  rcases finite_or_isInf hx with hx' | hx' <;> rcases finite_or_isInf hy with hy' | hy'
  · rw [← fle_iff_orderKey (hNaN x hx) (hNaN y hy)]
    exact hfinite x y hx' hy' ((fle_iff_orderKey hx hy).2 h)
  · have hkey := orderKey_of_isInf hy'
    have hlt := orderKey_lt_of_finite hx'
    rw [hinf y hy'] at hrangeY ⊢
    omega
  · have hkey := orderKey_of_isInf hx'
    have hlt := orderKey_lt_of_finite hy'
    rw [hinf x hx'] at hrangeX ⊢
    omega
  · rwa [hinf x hx', hinf y hy']

/-- Adding a finite value keeps the order. -/
theorem fle_fadd {a : Word} (ha : Finite a) {x y : Word} (h : fle x y = true) :
    fle (fadd a x) (fadd a y) = true := by
  refine fle_map (f := fadd a) (fun z hz => fadd_finite_isInf ha hz) (fun z w hz hw hle => ?_) h
  obtain ⟨hzNaN, hzKey⟩ := orderKey_fadd ha hz
  obtain ⟨hwNaN, hwKey⟩ := orderKey_fadd ha hw
  rw [fle_iff_fValue hz hw] at hle
  rw [fle_iff_orderKey hzNaN hwNaN, hzKey, hwKey]
  exact roundKey_mono Nat.one_pos (Int.add_le_add_left hle _)

/-- Dividing by a positive finite value keeps the order. -/
theorem fle_fdiv {d : Word} (hd : Finite d) (hpos : 0 < fValue d) {x y : Word} (h : fle x y = true) :
    fle (fdiv x d) (fdiv y d) = true := by
  obtain ⟨hs, hunits, -⟩ := fSign_of_fValue_pos hpos
  refine fle_map (f := (fdiv · d)) (fun z hz => ?_) (fun z w hz hw hle => ?_) h
  · rw [fdiv_isInf_finite hz hd, ← fInf_bne, hs, Bool.bne_false, fInf_fSign_of_isInf hz]
  · obtain ⟨hzNaN, hzKey⟩ := orderKey_fdiv hz hd hpos
    obtain ⟨hwNaN, hwKey⟩ := orderKey_fdiv hw hd hpos
    rw [fle_iff_fValue hz hw] at hle
    rw [fle_iff_orderKey hzNaN hwNaN, hzKey, hwKey]
    exact roundKey_mono (Nat.pos_of_ne_zero hunits) (Int.mul_le_mul_of_nonneg_right hle (Int.natCast_nonneg _))

/-- Products of finite values are ordered as the exact ones. -/
theorem fle_fmul {x y d : Word} (hx : Finite x) (hy : Finite y) (hd : Finite d)
    (h : fValue x * fValue d ≤ fValue y * fValue d) : fle (fmul x d) (fmul y d) = true := by
  obtain ⟨hxNaN, hxKey⟩ := orderKey_fmul hx hd
  obtain ⟨hyNaN, hyKey⟩ := orderKey_fmul hy hd
  rw [fle_iff_orderKey hxNaN hyNaN, hxKey, hyKey]
  exact roundKey_mono (Nat.two_pow_pos _) h

section
variable {x y d : Word} (hx : Finite x) (hy : Finite y) (hpos : 0 < fValue y) (hd : Finite d)
include hx hy hpos hd

/-- A quotient that is not above a finite value is rounded to a value not above it. -/
theorem fdiv_fle (h : fValue x * 2 ^ 149 ≤ fValue d * fValue y) : fle (fdiv x y) d = true := by
  obtain ⟨-, hunits, hvalue⟩ := fSign_of_fValue_pos hpos
  obtain ⟨hNaN, hkey⟩ := orderKey_fdiv hx hy hpos
  rw [fle_iff_orderKey hNaN hd.1, hkey, ← roundKey_fValue_mul hd (Nat.pos_of_ne_zero hunits), ← hvalue,
    natCast_two_pow]
  exact roundKey_mono (Nat.pos_of_ne_zero hunits) h

/-- A quotient that is not below a finite value is rounded to a value not below it. -/
theorem fle_fdiv_of_le (h : fValue d * fValue y ≤ fValue x * 2 ^ 149) : fle d (fdiv x y) = true := by
  obtain ⟨-, hunits, hvalue⟩ := fSign_of_fValue_pos hpos
  obtain ⟨hNaN, hkey⟩ := orderKey_fdiv hx hy hpos
  rw [fle_iff_orderKey hd.1 hNaN, hkey, ← roundKey_fValue_mul hd (Nat.pos_of_ne_zero hunits), ← hvalue,
    natCast_two_pow]
  exact roundKey_mono (Nat.pos_of_ne_zero hunits) h

end

/-! ## Operands of a finite sum -/

/-- A finite sum has finite operands. -/
theorem finite_of_finite_fadd {x y : Word} (h : Finite (fadd x y)) : Finite x ∧ Finite y := by
  have hNaN : ¬ Finite 0x7FC00000#32 := by decide
  have hinf : ∀ z, isInf z = true → ¬ Finite z := fun z hz hz' => Bool.noConfusion (hz.symm.trans hz'.2)
  rcases operand_classes x y with hclass | ⟨hx | hx, hy | hy⟩
  · exact absurd (fadd_of_isNaN hclass ▸ h) hNaN
  · exact ⟨hx, hy⟩
  · exact absurd (fadd_finite_isInf hx hy ▸ h) (hinf y hy)
  · exact absurd (fadd_isInf_finite hx hy ▸ h) (hinf x hx)
  · rw [fadd_isInf_isInf hx hy] at h
    split at h
    · exact absurd h (hinf x hx)
    · exact absurd h hNaN

theorem finite_of_finite_fsub {x y : Word} (h : Finite (fsub x y)) : Finite x ∧ Finite y := by
  obtain ⟨hx, hy⟩ := finite_of_finite_fadd h
  rw [finite_iff_fMagBits, fMagBits_fNegate, ← finite_iff_fMagBits] at hy
  exact ⟨hx, hy⟩

end Sys2Proof.Machine
end

section
/-! SUPPORT. The additive ramp (R201, R202): its offsets keep the order of their indices, and where no product overflows
they lie between 0 and the difference. -/

namespace Sys2Proof.Machine

theorem dmemWords_le {cfg : Params} (legal : cfg.legal = true) : cfg.dmemWords ≤ 2 ^ 24 := by
  simp only [Params.legal, Bool.and_eq_true, decide_eq_true_eq] at legal
  omega

/-! ## Counts as floats -/

section
variable {k : Nat}

theorem intToFloat_natCast (k : Nat) : intToFloat k = roundNearest false (k * 2 ^ 149) 1 := by
  rw [intToFloat, Int.natAbs_natCast, decide_eq_false (Int.not_lt.2 (Int.natCast_nonneg k))]

theorem fValue_intToFloat_natCast (k : Nat) : fValue (intToFloat k) = patternUnits (nearestBits (k * 2 ^ 149) 1) := by
  rw [intToFloat_natCast, fValue_eq_withSign, fUnits_roundNearest, roundNearest, fSign_fPack]
  rfl

theorem fValue_intToFloat_mono {j : Nat} (h : j ≤ k) : fValue (intToFloat j) ≤ fValue (intToFloat k) := by
  rw [fValue_intToFloat_natCast, fValue_intToFloat_natCast]
  exact Int.ofNat_le.2 (patternUnits_le_iff.2 (nearestBits_mono Nat.one_pos (Nat.mul_le_mul_right _ h)))

/-- The conversion of a count of 32 bits does not overflow. -/
theorem finite_intToFloat_natCast (hk : k < 2 ^ 32) : Finite (intToFloat k) := by
  have hle : k * 2 ^ 149 ≤ 1 * 2 ^ 181 := by omega
  rw [intToFloat_natCast, finite_roundNearest_iff]
  exact Nat.lt_of_le_of_lt (nearestBits_mono Nat.one_pos hle) (nearestBits_of_significand (by decide) (by decide)).1

theorem fValue_intToFloat_pos (hk : 0 < k) : 0 < fValue (intToFloat k) := by
  have hone : fValue (intToFloat 1) = 1 * 2 ^ 149 := (intToFloat_exact (by decide)).2
  have hle := fValue_intToFloat_mono hk
  rw [Int.natCast_one] at hle
  omega

theorem intToFloat_natCast_exact (hk : k ≤ 2 ^ 24) :
    Finite (intToFloat k) ∧ fValue (intToFloat k) = k * 2 ^ 149 ∧ fSign (intToFloat k) = false ∧
      fUnits (intToFloat k) = k * 2 ^ 149 := by
  obtain ⟨hfinite, hvalue⟩ := intToFloat_exact (k := k) (by omega)
  refine ⟨hfinite, hvalue, by rw [intToFloat_natCast, roundNearest, fSign_fPack], ?_⟩
  rw [← natAbs_fValue, hvalue]
  omega

end

/-! ## Offsets from the first value (R201) -/

/-- What element `k - 1` of an additive ramp of the difference `d` adds to the first value:
`fdiv(fmul(RN32(k), D), RN32(n))`. -/
def rampOffset (d : Word) (n k : Nat) : Word := fdiv (fmul (intToFloat k) d) (intToFloat n)

theorem addRampElement_eq_fadd_rampOffset (first final : Word) (n i : Nat) :
    addRampElement first final n i = fadd first (rampOffset (fsub final first) n (i + 1)) := rfl

section
variable {d : Word} {n j k : Nat} (hd : Finite d) (hn : n < 2 ^ 32) (hjk : j ≤ k) (hk : k < n)
include hd hn hjk hk

/-- The offsets of a difference that is not negative rise. -/
theorem rampOffset_mono (h : 0 ≤ fValue d) : fle (rampOffset d n j) (rampOffset d n k) = true :=
  fle_fdiv (finite_intToFloat_natCast hn) (fValue_intToFloat_pos (by omega))
    (fle_fmul (finite_intToFloat_natCast (by omega)) (finite_intToFloat_natCast (by omega)) hd
      (Int.mul_le_mul_of_nonneg_right (fValue_intToFloat_mono hjk) h))

/-- The offsets of a difference that is not positive fall. -/
theorem rampOffset_anti (h : fValue d ≤ 0) : fle (rampOffset d n k) (rampOffset d n j) = true :=
  fle_fdiv (finite_intToFloat_natCast hn) (fValue_intToFloat_pos (by omega))
    (fle_fmul (finite_intToFloat_natCast (by omega)) (finite_intToFloat_natCast (by omega)) hd
      (Int.mul_le_mul_of_nonpos_right (fValue_intToFloat_mono hjk) h))

end

/-! ## Products of a count (R15) -/

/-- A rounding is above the exact magnitude, a whole number `m` of units, by at most one part in 2^24: by half a spacing
where the spacing is above one unit, else not at all. -/
theorem nearestBits_whole_error {den : Nat} (hden : 0 < den) (m : Nat) :
    2 ^ 24 * patternUnits (nearestBits (m * den) den) ≤ (2 ^ 24 + 1) * m := by
  have hfloor : patternUnits (floorBits (m * den) den) ≤ m :=
    Nat.le_of_mul_le_mul_right (patternUnits_floorBits_le (m * den) den) hden
  have hnext : m < patternUnits (floorBits (m * den) den + 1) :=
    Nat.lt_of_mul_lt_mul_right (lt_patternUnits_floorBits_succ hden (m * den))
  rcases nearestBits_cases (m * den) den with ⟨hbits, -, -⟩ | ⟨hbits, hside, -⟩
  · have hle := patternUnits_le_iff.2 (hbits ▸ Nat.min_le_left _ infBits)
    omega
  · have hle := patternUnits_le_iff.2 (hbits ▸ Nat.min_le_left _ infBits)
    rw [neighbourSum, ← Nat.add_mul, ← Nat.mul_assoc] at hside
    have hmid := Nat.le_of_mul_le_mul_right hside hden
    obtain ⟨e, q, hsplit, hq, he⟩ := exists_significand (floorBits (m * den) den)
    have hlow : patternUnits (floorBits (m * den) den) = q * 2 ^ e :=
      hsplit ▸ patternUnits_significand (Nat.le_of_lt hq) he
    have hhigh : patternUnits (floorBits (m * den) den + 1) = q * 2 ^ e + 2 ^ e := by
      rw [hsplit, Nat.add_assoc, patternUnits_significand hq (by omega), Nat.succ_mul]
    rcases he with hnormal | rfl
    · have hpart : 2 ^ 23 * 2 ^ e ≤ q * 2 ^ e := Nat.mul_le_mul_right _ hnormal
      omega
    · omega

/-- The product of a count and a finite value is that value's multiple, rounded. -/
theorem fmul_intToFloat {k : Nat} (hk : k ≤ 2 ^ 24) {d : Word} (hd : Finite d) :
    fmul (intToFloat k) d = roundNearest (fSign d) (k * fUnits d * 2 ^ 149) (2 ^ 149) := by
  obtain ⟨hfinite, -, hs, hunits⟩ := intToFloat_natCast_exact hk
  rw [fmul_of_finite hfinite hd, hs, Bool.false_bne, hunits, Nat.mul_right_comm]

section
variable {d : Word} {n k : Nat} (hd : Finite d) (hn : n ≤ 2 ^ 24) (hk : k < n)
  (hlast : Finite (fmul (intToFloat ((n : Int) - 1)) d))
include hd hn hk hlast

/-- Where the largest product does not overflow, no product does. -/
theorem finite_fmul_intToFloat : Finite (fmul (intToFloat k) d) := by
  rw [show (n : Int) - 1 = (n - 1 : Nat) by omega, fmul_intToFloat (by omega) hd, finite_roundNearest_iff] at hlast
  rw [fmul_intToFloat (by omega) hd, finite_roundNearest_iff]
  refine Nat.lt_of_le_of_lt (nearestBits_mono (Nat.two_pow_pos _) ?_) hlast
  exact Nat.mul_le_mul_right _ (Nat.mul_le_mul_right _ (by omega))

end

/-- A product of a count below `n` is, rounded, at most `n` times the value: the count leaves a part in 2^24. -/
theorem fUnits_fmul_intToFloat_le {d : Word} {n k : Nat} (hd : Finite d) (hn : n ≤ 2 ^ 24) (hk : k < n) :
    fUnits (fmul (intToFloat k) d) ≤ fUnits d * n := by
  rw [fmul_intToFloat (by omega) hd, fUnits_roundNearest]
  have herror := nearestBits_whole_error (Nat.two_pow_pos 149) (k * fUnits d)
  have hcount : (2 ^ 24 + 1) * k ≤ 2 ^ 24 * n := by omega
  refine Nat.le_of_mul_le_mul_left (Nat.le_trans herror ?_) (Nat.two_pow_pos 24)
  calc (2 ^ 24 + 1) * (k * fUnits d) = (2 ^ 24 + 1) * k * fUnits d := (Nat.mul_assoc _ _ _).symm
    _ ≤ 2 ^ 24 * n * fUnits d := Nat.mul_le_mul_right _ hcount
    _ = 2 ^ 24 * (fUnits d * n) := by rw [Nat.mul_assoc, Nat.mul_comm n]

/-- A magnitude with the sign of another and at most `n` times as large lies between 0 and `n` times it. -/
theorem withSign_between {negative : Bool} {m u n : Nat} (h : m ≤ u * n) :
    (0 ≤ withSign negative u → 0 ≤ withSign negative m ∧ withSign negative m ≤ withSign negative u * n) ∧
    (withSign negative u ≤ 0 → withSign negative m ≤ 0 ∧ withSign negative u * n ≤ withSign negative m) := by
  have hzero : u = 0 → u * n = 0 := by
    rintro rfl
    exact Nat.zero_mul n
  rw [withSign_mul_natCast]
  cases negative <;> simp only [withSign, if_true, if_false, Bool.false_eq_true] <;> omega

section
variable {d : Word} {n k : Nat} (hd : Finite d) (hn : n ≤ 2 ^ 24) (hk : k < n)
  (hlast : Finite (fmul (intToFloat ((n : Int) - 1)) d))
include hd hn hk hlast

/-- Where no product overflows, an offset lies between 0 and the difference (R202). -/
theorem rampOffset_between :
    (0 ≤ fValue d → fle 0x80000000#32 (rampOffset d n k) = true ∧ fle (rampOffset d n k) d = true) ∧
    (fValue d ≤ 0 → fle (rampOffset d n k) 0x80000000#32 = true ∧ fle d (rampOffset d n k) = true) := by
  have hproduct := finite_fmul_intToFloat hd hn hk hlast
  obtain ⟨hcount, hvalue, -, -⟩ := intToFloat_natCast_exact hn
  have hpos : 0 < fValue (intToFloat n) := fValue_intToFloat_pos (by omega)
  have hzero : Finite 0x80000000#32 ∧ fValue 0x80000000#32 = 0 := by decide
  have hsign : fSign (fmul (intToFloat k) d) = fSign d := by
    rw [fmul_intToFloat (by omega) hd, roundNearest, fSign_fPack]
  have hbound := withSign_between (negative := fSign d) (fUnits_fmul_intToFloat_le hd hn hk)
  rw [← fValue_eq_withSign, ← hsign, ← fValue_eq_withSign] at hbound
  obtain ⟨hrise, hfall⟩ := hbound
  refine ⟨fun h => ?_, fun h => ?_⟩
  · obtain ⟨hlow, hhigh⟩ := hrise h
    exact ⟨fle_fdiv_of_le hproduct hcount hpos hzero.1 (by rw [hzero.2]; omega),
      fdiv_fle hproduct hcount hpos hd (by rw [hvalue, ← Int.mul_assoc]; omega)⟩
  · obtain ⟨hhigh, hlow⟩ := hfall h
    exact ⟨fdiv_fle hproduct hcount hpos hzero.1 (by rw [hzero.2]; omega),
      fle_fdiv_of_le hproduct hcount hpos hd (by rw [hvalue, ← Int.mul_assoc]; omega)⟩

end

/-! ## Elements (R202) -/

theorem fge_zero_iff {x : Word} (hx : Finite x) : fge x 0#32 = true ↔ 0 ≤ fValue x :=
  fle_iff_fValue (by decide) hx

theorem fle_zero_iff {x : Word} (hx : Finite x) : fle x 0#32 = true ↔ fValue x ≤ 0 :=
  fle_iff_fValue hx (by decide)

section
variable {first final : Word} {n : Nat} (hd : Finite (fsub final first))
include hd

section
variable {i : Nat} (hn : n < 2 ^ 32) (hi : i + 2 < n)
include hn hi

theorem addRampElement_rises (h : fge (fsub final first) 0#32 = true) :
    fle (addRampElement first final n i) (addRampElement first final n (i + 1)) = true := by
  rw [addRampElement_eq_fadd_rampOffset, addRampElement_eq_fadd_rampOffset]
  exact fle_fadd (finite_of_finite_fsub hd).2 (rampOffset_mono hd hn (by omega) hi ((fge_zero_iff hd).1 h))

theorem addRampElement_falls (h : fle (fsub final first) 0#32 = true) :
    fge (addRampElement first final n i) (addRampElement first final n (i + 1)) = true := by
  rw [addRampElement_eq_fadd_rampOffset, addRampElement_eq_fadd_rampOffset]
  exact fle_fadd (finite_of_finite_fsub hd).2 (rampOffset_anti hd hn (by omega) hi ((fle_zero_iff hd).1 h))

end

section
variable {i : Nat} (hn : n ≤ 2 ^ 24) (hi : i + 1 < n)
  (hlast : Finite (fmul (intToFloat ((n : Int) - 1)) (fsub final first)))
include hn hi hlast

theorem addRampElement_between_of_rising (h : fge (fsub final first) 0#32 = true) :
    fle first (addRampElement first final n i) = true ∧
      fle (addRampElement first final n i) (fadd first (fsub final first)) = true := by
  have hf := (finite_of_finite_fsub hd).2
  obtain ⟨hlow, hhigh⟩ := (rampOffset_between hd hn hi hlast).1 ((fge_zero_iff hd).1 h)
  have hfirst := fle_fadd hf hlow
  rw [fadd_negZero hf.1] at hfirst
  rw [addRampElement_eq_fadd_rampOffset]
  exact ⟨hfirst, fle_fadd hf hhigh⟩

theorem addRampElement_between_of_falling (h : fle (fsub final first) 0#32 = true) :
    fge first (addRampElement first final n i) = true ∧
      fge (addRampElement first final n i) (fadd first (fsub final first)) = true := by
  have hf := (finite_of_finite_fsub hd).2
  obtain ⟨hhigh, hlow⟩ := (rampOffset_between hd hn hi hlast).2 ((fle_zero_iff hd).1 h)
  have hfirst := fle_fadd hf hhigh
  rw [fadd_negZero hf.1] at hfirst
  rw [addRampElement_eq_fadd_rampOffset]
  exact ⟨hfirst, fle_fadd hf hlow⟩

end

end

/-! ## Neighbours in a written ramp -/

section
variable {g : Nat → Word} {last : Word} {base n : Nat} {s t : State} {rel : Word → Word → Prop}

/-- A relation between neighbouring elements before the last holds of the words written. -/
theorem RampWritten.rel_elements (ramp : RampWritten g last base n s t) (h : ∀ i, i + 2 < n → rel (g i) (g (i + 1))) :
    ∀ i, i + 2 < n → rel (t.dmemWord (base + i)) (t.dmemWord (base + i + 1)) := fun i hi => by
  rw [Nat.add_assoc, ramp.element i (Nat.lt_of_succ_lt hi), ramp.element (i + 1) hi]
  exact h i hi

/-- A relation between neighbouring elements and of each to the last one holds of all words written. -/
theorem RampWritten.rel_all (ramp : RampWritten g last base n s t) (h : ∀ i, i + 2 < n → rel (g i) (g (i + 1)))
    (hlast : ∀ i, i + 1 < n → rel (g i) last) :
    ∀ i, i + 1 < n → rel (t.dmemWord (base + i)) (t.dmemWord (base + i + 1)) := fun i hi => by
  rcases Nat.lt_or_ge (i + 2) n with hlt | hge
  · exact ramp.rel_elements h i hlt
  · rw [ramp.element i hi, show base + i + 1 = base + n - 1 by omega, ramp.final]
    exact hlast i hi

end

end Sys2Proof.Machine

open Sys2Proof Sys2Proof.Machine

/-- Settles O40: every step of the formula keeps the order. -/
theorem additiveRampIsMonotone : Obligations.AdditiveRampIsMonotone := by
  unfold Obligations.AdditiveRampIsMonotone
  intro s a b c d n t0 diff hn hr
  obtain ⟨-, t, he, ramp⟩ := executes_vrampa (b := b) (c := c) hn hr
  have h32 : n < 2 ^ 32 := BitVec.isLt _
  exact ⟨t, he, ramp.final,
    fun hd hrise => ramp.rel_elements (rel := fun x y => fle x y = true) fun _ hi =>
      addRampElement_rises hd h32 hi hrise,
    fun hd hfall => ramp.rel_elements (rel := fun x y => fge x y = true) fun _ hi =>
      addRampElement_falls hd h32 hi hfall⟩

/-- Refutes O41: with `A` = 0 and `B` the greatest finite value, `fmul(2.0, D)` overflows, so element 1 of 3 is the
infinity, above `fadd(A, D)`. -/
theorem not_additiveRampStaysBetween : ¬ Obligations.AdditiveRampStaysBetween := by
  unfold Obligations.AdditiveRampStaysBetween
  intro h
  have hbetween := h 0#32 0x7F7FFFFF#32 3 1 (by decide) (by decide) (by decide) (by decide) (by decide) (by decide)
  have helement : addRampElement 0#32 0x7F7FFFFF#32 3 1 = 0x7F800000#32 := by decide
  have hend : fadd 0#32 (fsub 0x7F7FFFFF#32 0#32) = 0x7F7FFFFF#32 := by decide
  rw [helement, hend] at hbetween
  exact absurd hbetween.2 (by decide)

/-- Settles O59: where no product overflows each offset lies between 0 and the difference, and the last word ends the
order when it is `A + D`. -/
theorem additiveRampStaysBetweenWithoutOverflow : Obligations.AdditiveRampStaysBetweenWithoutOverflow := by
  unfold Obligations.AdditiveRampStaysBetweenWithoutOverflow
  intro s a b c d legal n t0 first final diff hn hr hd hlast
  obtain ⟨-, t, he, written⟩ := executes_vrampa (b := b) (c := c) hn hr
  have ramp : RampWritten (addRampElement first final n) final t0 n s t := written
  have h32 : n < 2 ^ 32 := BitVec.isLt _
  have h24 : n ≤ 2 ^ 24 := Nat.le_trans (Nat.le_of_add_left_le hr) (dmemWords_le legal)
  have hrises := fun h i hi => addRampElement_between_of_rising (i := i) hd h24 hi hlast h
  have hfalls := fun h i hi => addRampElement_between_of_falling (i := i) hd h24 hi hlast h
  refine ⟨t, he, fun h => ⟨fun i hi => ?_, fun hend => ?_⟩, fun h => ⟨fun i hi => ?_, fun hend => ?_⟩⟩
  · exact ramp.element i hi ▸ hrises h i hi
  · exact ramp.rel_all (rel := fun x y => fle x y = true) (fun _ hi => addRampElement_rises hd h32 hi h)
      fun i hi => (congrArg _ hend).symm.trans (hrises h i hi).2
  · exact ramp.element i hi ▸ hfalls h i hi
  · exact ramp.rel_all (rel := fun x y => fge x y = true) (fun _ hi => addRampElement_falls hd h32 hi h)
      fun i hi => (congrArg _ hend).symm.trans (hfalls h i hi).2

end

section
/-! SUPPORT. `P_RATIO` (R204): the greatest pattern whose power does not pass the quotient lies below the exact root,
the next one above it, and the ratio is one of the two. -/

namespace Sys2Proof.Machine

/-! ## Powers against the quotient -/

/-- What the `n`-th power of a magnitude of `units` units is compared by, for an initial magnitude `a` (R204). -/
def rootPower (a n units : Nat) : Nat := units ^ n * a

/-- What `rootPower` is compared with: that of the exact root, for a final magnitude `b` (R204). -/
def rootTarget (b n : Nat) : Nat := b * 2 ^ (149 * n)

theorem rootPower_lt {a n : Nat} (ha : 0 < a) (hn : n ≠ 0) {i j : Nat} (h : i < j) :
    rootPower a n i < rootPower a n j :=
  Nat.mul_lt_mul_of_pos_right (Nat.pow_lt_pow_left h hn) ha

theorem rootPower_le (a n : Nat) {i j : Nat} (h : i ≤ j) : rootPower a n i ≤ rootPower a n j :=
  Nat.mul_le_mul_right a (Nat.pow_le_pow_left h n)

theorem rootPower_two_mul (a n units : Nat) : rootPower a n (2 * units) = 2 ^ n * rootPower a n units := by
  rw [rootPower, rootPower, Nat.mul_pow, Nat.mul_assoc]

theorem two_pow_mul_rootTarget (b n : Nat) : b * 2 ^ (150 * n) = 2 ^ n * rootTarget b n := by
  rw [rootTarget, Nat.mul_left_comm, ← Nat.pow_add, show n + 149 * n = 150 * n by omega]

/-! ## The search -/

/-- A search between a number that the test accepts and one that it rejects ends where the test changes. -/
theorem searchBits_boundary (test : Nat → Bool) : ∀ k acc, test acc = true → test (acc + 2 ^ k) = false →
    test (searchBits test k acc) = true ∧ test (searchBits test k acc + 1) = false
  | 0, _, hacc, hnext => ⟨hacc, hnext⟩
  | k + 1, acc, hacc, hnext => by
    rw [searchBits]
    cases hmid : test (acc + 2 ^ k)
    · rw [if_neg Bool.false_ne_true]
      exact searchBits_boundary test k acc hacc hmid
    · rw [if_pos rfl]
      exact searchBits_boundary test k _ hmid (by rwa [Nat.add_assoc, ← Nat.two_mul, ← Nat.pow_succ'])

/-- `d` is the pattern below the exact root, and it and the next one are positive and finite. -/
structure IsRootFloor (a b n d : Nat) : Prop where
  pos : 0 < d
  finite : d + 1 < infBits
  le : rootPower a n (patternUnits d) ≤ rootTarget b n
  lt_next : rootTarget b n < rootPower a n (patternUnits (d + 1))

/-- The search finds the pattern below a root that lies between the least and the greatest positive values. -/
theorem isRootFloor_rootDownBits {a b n : Nat} (hn : n ≠ 0) (hlow : rootPower a n (patternUnits 1) ≤ rootTarget b n)
    (hhigh : rootTarget b n < rootPower a n (patternUnits (infBits - 1))) :
    IsRootFloor a b n (rootDownBits a b n) := by
  have hzero : rootPower a n (patternUnits 0) ≤ rootTarget b n := by
    rw [rootPower, show patternUnits 0 = 0 from rfl, Nat.zero_pow (Nat.pos_of_ne_zero hn), Nat.zero_mul]
    exact Nat.zero_le _
  have htest : ∀ bits, (decide (bits < infBits) && atMostRoot a b n (patternUnits bits)) = true ↔
      bits < infBits ∧ rootPower a n (patternUnits bits) ≤ rootTarget b n := fun bits => by
    rw [Bool.and_eq_true, decide_eq_true_eq, atMostRoot, decide_eq_true_eq, rootPower, rootTarget]
  obtain ⟨hfound, hnext⟩ := searchBits_boundary
    (fun bits => decide (bits < infBits) && atMostRoot a b n (patternUnits bits)) 31 0
    ((htest 0).2 ⟨by decide, hzero⟩) rfl
  rw [← Bool.not_eq_true] at hnext
  rw [htest] at hfound hnext
  rw [← rootDownBits] at hfound hnext
  obtain ⟨hlt, hle⟩ := hfound
  have hfinite : rootDownBits a b n + 1 < infBits := by
    refine Nat.lt_of_le_of_ne hlt fun heq => ?_
    rw [show rootDownBits a b n = infBits - 1 by omega] at hle
    exact Nat.not_le.2 hhigh hle
  have hlt_next := Nat.not_le.1 fun h => hnext ⟨hfinite, h⟩
  refine ⟨Nat.pos_of_ne_zero fun h => ?_, hfinite, hle, hlt_next⟩
  rw [h] at hlt_next
  exact Nat.not_le.2 hlt_next hlow

/-! ## The choice between the neighbours -/

theorem rootIsExact_iff (a b n bits : Nat) :
    rootIsExact a b n bits = true ↔ rootPower a n (patternUnits bits) = rootTarget b n := decide_eq_true_iff

theorem rootNearestUp_iff (a b n bits : Nat) : rootNearestUp a b n bits = true ↔
    rootPower a n (patternUnits bits + patternUnits (bits + 1)) < 2 ^ n * rootTarget b n ∨
    rootPower a n (patternUnits bits + patternUnits (bits + 1)) = 2 ^ n * rootTarget b n ∧ bits % 2 = 1 := by
  rw [rootNearestUp, ← two_pow_mul_rootTarget, rootPower]
  simp

/-- Whether `P_RATIO` takes the pattern above the root where the root is no binary32 value (R204). -/
def ratioTakesUpper (choice : RatioRounding) (x y : Word) (n : Nat) : Bool :=
  match choice with
  | .nearest => rootNearestUp (fUnits x) (fUnits y) n (rootDownBits (fUnits x) (fUnits y) n)
  | .implementation => Config.ratioRoundsUp x y n

theorem rampRatio_eq (choice : RatioRounding) (x y : Word) (n : Nat) :
    rampRatio choice x y n = fPack false
      (if rootIsExact (fUnits x) (fUnits y) n (rootDownBits (fUnits x) (fUnits y) n) then
        rootDownBits (fUnits x) (fUnits y) n
      else if ratioTakesUpper choice x y n then rootDownBits (fUnits x) (fUnits y) n + 1
      else rootDownBits (fUnits x) (fUnits y) n) := by
  cases choice <;> rfl

/-- The bits `k` are a faithful rounding of the exact root: the root itself, or one of its neighbours (R204). -/
def IsFaithfulRoot (a b n k : Nat) : Prop :=
  rootPower a n (patternUnits k) = rootTarget b n ∨
  (rootPower a n (patternUnits k) < rootTarget b n ∧ rootTarget b n < rootPower a n (patternUnits (k + 1))) ∨
  (rootPower a n (patternUnits (k - 1)) < rootTarget b n ∧ rootTarget b n < rootPower a n (patternUnits k))

/-- The bits `k` are the nearest to the exact root, ties to even: it lies between the midpoints on both sides (R15). -/
def IsNearestRoot (a b n k : Nat) : Prop :=
  2 ^ n * rootTarget b n ≤ rootPower a n (patternUnits k + patternUnits (k + 1)) ∧
  rootPower a n (patternUnits (k - 1) + patternUnits k) ≤ 2 ^ n * rootTarget b n ∧
  (2 ^ n * rootTarget b n = rootPower a n (patternUnits k + patternUnits (k + 1)) ∨
    rootPower a n (patternUnits (k - 1) + patternUnits k) = 2 ^ n * rootTarget b n → k % 2 = 0)

section
variable {a b n d : Nat} (ha : 0 < a) (hn : n ≠ 0) (h : IsRootFloor a b n d)
include ha hn h

/-- A pattern that is the exact root is the one that the search finds. -/
theorem IsRootFloor.eq_of_exact {k : Nat} (hk : rootPower a n (patternUnits k) = rootTarget b n) : k = d := by
  have hlow := h.le
  have hhigh := h.lt_next
  rcases Nat.lt_trichotomy k d with hlt | heq | hgt
  · have hbelow := rootPower_lt ha hn (patternUnits_lt hlt)
    omega
  · exact heq
  · have habove := rootPower_le a n (patternUnits_le_iff.2 (show d + 1 ≤ k from hgt))
    omega

/-- The midpoint below the pattern found lies below the root. -/
theorem IsRootFloor.midpoint_below :
    rootPower a n (patternUnits (d - 1) + patternUnits d) < 2 ^ n * rootTarget b n := by
  have hlt := patternUnits_lt (Nat.sub_lt h.pos Nat.one_pos)
  calc rootPower a n (patternUnits (d - 1) + patternUnits d)
      < rootPower a n (2 * patternUnits d) := rootPower_lt ha hn (by omega)
    _ = 2 ^ n * rootPower a n (patternUnits d) := rootPower_two_mul a n _
    _ ≤ 2 ^ n * rootTarget b n := Nat.mul_le_mul_left _ h.le

/-- The midpoint above the pattern after the one found lies above the root. -/
theorem IsRootFloor.midpoint_above :
    2 ^ n * rootTarget b n < rootPower a n (patternUnits (d + 1) + patternUnits (d + 1 + 1)) := by
  have hlt := patternUnits_lt_succ (d + 1)
  calc 2 ^ n * rootTarget b n
      < 2 ^ n * rootPower a n (patternUnits (d + 1)) := Nat.mul_lt_mul_of_pos_left h.lt_next (Nat.two_pow_pos n)
    _ = rootPower a n (2 * patternUnits (d + 1)) := (rootPower_two_mul a n _).symm
    _ < _ := rootPower_lt ha hn (by omega)

theorem IsRootFloor.isNearestRoot_of_exact (hd : rootPower a n (patternUnits d) = rootTarget b n) :
    IsNearestRoot a b n d := by
  have hbelow := h.midpoint_below ha hn
  have habove : 2 ^ n * rootTarget b n < rootPower a n (patternUnits d + patternUnits (d + 1)) := by
    have hlt := patternUnits_lt_succ d
    rw [← hd, ← rootPower_two_mul]
    exact rootPower_lt ha hn (by omega)
  refine ⟨Nat.le_of_lt habove, Nat.le_of_lt hbelow, fun htie => ?_⟩
  rcases htie with heq | heq
  · exact absurd heq (Nat.ne_of_lt habove)
  · exact absurd heq (Nat.ne_of_lt hbelow)

theorem IsRootFloor.isNearestRoot_lower (hup : rootNearestUp a b n d = false) : IsNearestRoot a b n d := by
  have hbelow := h.midpoint_below ha hn
  rw [← Bool.not_eq_true, rootNearestUp_iff, not_or, not_and] at hup
  obtain ⟨hside, htie⟩ := hup
  refine ⟨Nat.not_lt.1 hside, Nat.le_of_lt hbelow, fun heq => ?_⟩
  have hodd := htie (heq.elim Eq.symm fun heq => absurd heq (Nat.ne_of_lt hbelow))
  omega

theorem IsRootFloor.isNearestRoot_upper (hup : rootNearestUp a b n d = true) : IsNearestRoot a b n (d + 1) := by
  have habove := h.midpoint_above ha hn
  rw [rootNearestUp_iff] at hup
  refine ⟨Nat.le_of_lt habove, hup.elim Nat.le_of_lt fun ⟨htie, _⟩ => Nat.le_of_eq htie, fun heq => ?_⟩
  rcases hup with hlt | ⟨-, hodd⟩
  · have hne := Nat.ne_of_lt hlt
    exact absurd (heq.elim (fun heq => absurd heq (Nat.ne_of_lt habove)) id) hne
  · omega

end

/-! ## The ratio -/

/-- The endpoints of a ratio: finite magnitudes of a normal value or more, and a count of two steps or more (R204). -/
structure RatioDomain (a b n : Nat) : Prop where
  initial_ge : 2 ^ 23 ≤ a
  initial_lt : a < 2 ^ 277
  final_ge : 2 ^ 23 ≤ b
  final_lt : b < 2 ^ 277
  count : 2 ≤ n

/-! Powers of 2 with their exponents as variables, so that no power above the limit of evaluation is unified. -/

theorem two_pow_le {i j : Nat} (h : i ≤ j) : 2 ^ i ≤ 2 ^ j := Nat.pow_le_pow_right Nat.two_pos h

theorem two_pow_add (i j : Nat) : 2 ^ (i + j) = 2 ^ i * 2 ^ j := Nat.pow_add 2 i j

theorem two_pow_mul (i j : Nat) : 2 ^ (i * j) = (2 ^ i) ^ j := Nat.pow_mul 2 i j

/-- The root of such endpoints is far from both ends of the format: it lies between 2^-127 and 2^127. -/
theorem RatioDomain.isRootFloor {a b n : Nat} (h : RatioDomain a b n) :
    IsRootFloor a b n (rootDownBits a b n) := by
  have hcount := h.count
  have hlow : 277 ≤ 23 + 149 * n := by omega
  have hhigh : 277 + 149 * n ≤ 276 * n + 23 := by omega
  refine isRootFloor_rootDownBits (by omega) ?_ ?_
  · rw [rootPower, rootTarget, show patternUnits 1 = 1 from rfl, Nat.one_pow, Nat.one_mul]
    calc a ≤ 2 ^ 277 := Nat.le_of_lt h.initial_lt
      _ ≤ 2 ^ (23 + 149 * n) := two_pow_le hlow
      _ = 2 ^ 23 * 2 ^ (149 * n) := two_pow_add _ _
      _ ≤ b * 2 ^ (149 * n) := Nat.mul_le_mul_right _ h.final_ge
  · have hmax : 2 ^ 276 ≤ patternUnits (infBits - 1) := by
      have hhalf := two_pow_le (i := 253) (j := 276) (by decide)
      rw [patternUnits_infBits_pred, show 277 = 276 + 1 from rfl, two_pow_add]
      omega
    calc rootTarget b n < 2 ^ 277 * 2 ^ (149 * n) := Nat.mul_lt_mul_of_pos_right h.final_lt (Nat.two_pow_pos _)
      _ = 2 ^ (277 + 149 * n) := (two_pow_add _ _).symm
      _ ≤ 2 ^ (276 * n + 23) := two_pow_le hhigh
      _ = (2 ^ 276) ^ n * 2 ^ 23 := by rw [two_pow_add, two_pow_mul]
      _ ≤ rootPower a n (patternUnits (infBits - 1)) :=
        Nat.mul_le_mul (Nat.pow_le_pow_left hmax n) h.initial_ge

/-- The bits `k` are a ratio as R204 requires: positive, finite and faithful, the root itself where it has bits, and
with the spec's default the nearest. -/
structure IsRatio (choice : RatioRounding) (a b n k : Nat) : Prop where
  pos : 0 < k
  finite : k < infBits
  faithful : IsFaithfulRoot a b n k
  exact : ∀ j, rootPower a n (patternUnits j) = rootTarget b n → k = j
  nearest : choice = .nearest → IsNearestRoot a b n k

/-- The pattern below the root where it is exact, else that one or the next, by a choice that is free but for the spec's
default. -/
theorem IsRootFloor.isRatio {choice : RatioRounding} {a b n d : Nat} {up : Bool} (h : IsRootFloor a b n d)
    (ha : 0 < a) (hn : n ≠ 0) (hdefault : choice = .nearest → up = rootNearestUp a b n d) :
    IsRatio choice a b n (if rootIsExact a b n d then d else if up then d + 1 else d) := by
  by_cases heq : rootPower a n (patternUnits d) = rootTarget b n
  · rw [if_pos ((rootIsExact_iff a b n d).2 heq)]
    exact ⟨h.pos, Nat.lt_of_succ_lt h.finite, .inl heq, fun j hj => (h.eq_of_exact ha hn hj).symm,
      fun _ => h.isNearestRoot_of_exact ha hn heq⟩
  · have hlt := Nat.lt_of_le_of_ne h.le heq
    have hnone : ∀ j, rootPower a n (patternUnits j) ≠ rootTarget b n := fun j hj =>
      heq (h.eq_of_exact ha hn hj ▸ hj)
    rw [if_neg fun hexact => heq ((rootIsExact_iff a b n d).1 hexact)]
    cases up
    · exact ⟨h.pos, Nat.lt_of_succ_lt h.finite, .inr (.inl ⟨hlt, h.lt_next⟩), fun j hj => absurd hj (hnone j),
        fun hc => h.isNearestRoot_lower ha hn (hdefault hc).symm⟩
    · exact ⟨Nat.succ_pos d, h.finite, .inr (.inr ⟨hlt, h.lt_next⟩), fun j hj => absurd hj (hnone j),
        fun hc => h.isNearestRoot_upper ha hn (hdefault hc).symm⟩

/-- What `P_RATIO` gives for endpoints in its domain (R204). -/
theorem rampRatio_spec {choice : RatioRounding} {x y : Word} {n : Nat} (h : RatioDomain (fUnits x) (fUnits y) n) :
    ∃ k, rampRatio choice x y n = fPack false k ∧ IsRatio choice (fUnits x) (fUnits y) n k := by
  have ha : 0 < fUnits x := Nat.lt_of_lt_of_le (Nat.two_pow_pos 23) h.initial_ge
  have hn : n ≠ 0 := Nat.ne_of_gt (Nat.lt_of_lt_of_le Nat.two_pos h.count)
  refine ⟨_, rampRatio_eq choice x y n, h.isRootFloor.isRatio ha hn ?_⟩
  rintro rfl
  rfl

/-! ## Endpoints at or above the floor (R203) -/

theorem fabs_eq_fPack (x : Word) : fabs x = fPack false (fMagBits x) := by
  rw [fPack, fMagBits, BitVec.ofNat_toNat, BitVec.setWidth_eq]
  rfl

theorem orderKey_fabs (x : Word) : orderKey (fabs x) = fMagBits x := by
  rw [fabs_eq_fPack, orderKey_fPack _ (fMagBits_lt x)]
  rfl

/-- A legal floor is a positive normal value up to 1.0 (R7). -/
theorem rampFloor_range {cfg : Params} (legal : cfg.legal = true) :
    fSign cfg.rampFloor = false ∧ 0x00800000 ≤ fMagBits cfg.rampFloor ∧ fMagBits cfg.rampFloor ≤ 0x3F800000 := by
  simp only [Params.legal, Bool.and_eq_true, decide_eq_true_eq] at legal
  obtain ⟨⟨-, hlow⟩, hhigh⟩ := legal
  rw [fMagBits_eq_mod, fSign, BitVec.msb_eq_false_iff_two_mul_lt]
  omega

/-- A magnitude at or above the floor is a normal value. -/
theorem fUnits_ge_of_fge_floor {cfg : Params} (legal : cfg.legal = true) {x : Word}
    (h : fge (fabs x) cfg.rampFloor = true) : 2 ^ 23 ≤ fUnits x := by
  obtain ⟨hs, hlow, -⟩ := rampFloor_range legal
  obtain ⟨hfloor, hx⟩ := isNaN_of_fle h
  have hkey := (fge_iff_orderKey hx hfloor).1 h
  rw [orderKey_fabs, orderKey_eq_withSign, hs] at hkey
  have hbits : 0x00800000 ≤ fMagBits x := Nat.le_trans hlow (Int.ofNat_le.1 hkey)
  exact patternUnits_le_iff.2 hbits

theorem fUnits_lt_of_finite {x : Word} (h : Finite x) : fUnits x < 2 ^ 277 :=
  patternUnits_infBits ▸ patternUnits_lt ((finite_iff_fMagBits x).1 h)

/-- Finite endpoints at or above the floor are in the domain of `P_RATIO`. -/
theorem ratioDomain_of_floor {cfg : Params} (legal : cfg.legal = true) {x y : Word} {n : Nat} (hx : Finite x)
    (hy : Finite y) (hxFloor : fge (fabs x) cfg.rampFloor = true) (hyFloor : fge (fabs y) cfg.rampFloor = true)
    (hn : 2 ≤ n) : RatioDomain (fUnits x) (fUnits y) n where
  initial_ge := fUnits_ge_of_fge_floor legal hxFloor
  initial_lt := fUnits_lt_of_finite hx
  final_ge := fUnits_ge_of_fge_floor legal hyFloor
  final_lt := fUnits_lt_of_finite hy
  count := hn

end Sys2Proof.Machine

open Sys2Proof Sys2Proof.Machine

/-- Settles O38: the search stops at the pattern below the root, whose power is compared with the quotient. -/
theorem ratioIsFaithful : Obligations.RatioIsFaithful := by
  unfold Obligations.RatioIsFaithful
  intro cfg x y n legal hx hy _ hxFloor hyFloor hn _ r a b u bits isExact
  obtain ⟨k, hratio, hk⟩ :=
    rampRatio_spec (choice := cfg.ratio) (ratioDomain_of_floor legal hx hy hxFloor hyFloor hn)
  have hr : r = fPack false k := hratio
  have hbits : bits = k := by
    simp only [bits, hr]
    exact fMagBits_fPack false (Nat.lt_trans hk.finite infBits_lt)
  rw [hbits, hr, two_pow_mul_rootTarget]
  exact ⟨fSign_fPack false k, finite_fPack false hk.finite, hk.pos, hk.faithful, fun j _ => hk.exact j,
    hk.nearest⟩

end

section
/-! SUPPORT. The geometric ramp (R203, R206): the clamped endpoints, the sign of the running value, and its exact
powers. -/

namespace Sys2Proof.Machine

/-! ## Clamped endpoints (R203) -/

section
variable {cfg : Params} (legal : cfg.legal = true)
include legal

theorem finite_rampFloor : Finite cfg.rampFloor := by
  obtain ⟨-, -, hhigh⟩ := rampFloor_range legal
  exact (finite_iff_fMagBits _).2 (Nat.lt_of_le_of_lt hhigh (by decide))

theorem fabs_signedFloor (negative : Bool) : fabs (fPack negative (fMagBits cfg.rampFloor)) = cfg.rampFloor := by
  obtain ⟨hs, -, -⟩ := rampFloor_range legal
  rw [fabs_eq_fPack, fMagBits_fPack _ (fMagBits_lt _), ← hs, fPack_fSign_fMagBits]

/-- A clamped finite endpoint is finite, at or above the floor, and of the same sign. -/
theorem clampToFloor_spec {x : Word} (hx : Finite x) :
    Finite (clampToFloor cfg.rampFloor x) ∧ fge (fabs (clampToFloor cfg.rampFloor x)) cfg.rampFloor = true ∧
      fSign (clampToFloor cfg.rampFloor x) = fSign x := by
  have hfloor := finite_rampFloor legal
  rw [clampToFloor]
  split
  next hge => exact ⟨hx, hge, rfl⟩
  next =>
    refine ⟨finite_fPack _ ((finite_iff_fMagBits _).1 hfloor), ?_, fSign_fPack _ _⟩
    rw [fabs_signedFloor legal]
    exact fle_refl hfloor.1

/-- The ratio of clamped endpoints is positive and finite. -/
theorem rampRatio_clamped (choice : RatioRounding) {x y : Word} {n : Nat} (hx : Finite x) (hy : Finite y)
    (hn : 2 ≤ n) :
    let r := rampRatio choice (clampToFloor cfg.rampFloor x) (clampToFloor cfg.rampFloor y) n
    Finite r ∧ fSign r = false ∧ fUnits r ≠ 0 := by
  obtain ⟨hxClamp, hxFloor, -⟩ := clampToFloor_spec legal hx
  obtain ⟨hyClamp, hyFloor, -⟩ := clampToFloor_spec legal hy
  obtain ⟨k, hratio, hk⟩ := rampRatio_spec (choice := choice)
    (ratioDomain_of_floor legal hxClamp hyClamp hxFloor hyFloor hn)
  dsimp only
  rw [hratio, Ne, fUnits_eq_zero_iff, fMagBits_fPack _ (Nat.lt_trans hk.finite infBits_lt)]
  exact ⟨finite_fPack false hk.finite, fSign_fPack false k, Nat.ne_of_gt hk.pos⟩

end

/-! ## The running value (R205, R206) -/

section
variable {r : Word} (hr : Finite r) (hs : fSign r = false) (hpos : fUnits r ≠ 0)
include hr hs hpos

/-- The product with a positive finite value keeps the sign, overflow and underflow included (R206). -/
theorem fSign_fmul_of_pos {x : Word} (hx : isNaN x = false) :
    isNaN (fmul x r) = false ∧ fSign (fmul x r) = fSign x := by
  rcases finite_or_isInf hx with hfinite | hinf
  · rw [fmul_of_finite hfinite hr, hs, Bool.bne_false]
    exact ⟨isNaN_roundNearest _ _ _, fSign_fPack _ _⟩
  · rw [fmul_isInf hinf hr.1, if_neg hpos, ← fInf_bne, hs, Bool.bne_false, fInf_fSign_of_isInf hinf]
    exact ⟨hx, rfl⟩

theorem fSign_mulRampValue {first : Word} (hfirst : isNaN first = false) (k : Nat) :
    isNaN (mulRampValue first r k) = false ∧ fSign (mulRampValue first r k) = fSign first := by
  induction k with
  | zero => exact ⟨hfirst, rfl⟩
  | succ k ih =>
    obtain ⟨hNaN, hsign⟩ := fSign_fmul_of_pos hr hs hpos ih.1
    exact ⟨hNaN, hsign.trans ih.2⟩

end

/-- Values that start at one step from `a` and are each `r` units of 2^-149 times the one before are `a` times the
powers of `r`. -/
theorem units_of_exact_products {u : Nat → Nat} {a r n : Nat} (hfirst : u 0 * 2 ^ 149 = a * r)
    (hstep : ∀ i, i + 2 < n → u (i + 1) * 2 ^ 149 = u i * r) {i : Nat} (hi : i + 1 < n) :
    u i * 2 ^ (149 * (i + 1)) = a * r ^ (i + 1) := by
  induction i with
  | zero => rw [Nat.zero_add, Nat.mul_one, Nat.pow_one, hfirst]
  | succ i ih =>
    calc u (i + 1) * 2 ^ (149 * (i + 1 + 1))
        = u (i + 1) * 2 ^ 149 * 2 ^ (149 * (i + 1)) := by
          rw [Nat.mul_succ, Nat.pow_add, Nat.mul_comm (2 ^ (149 * (i + 1))), Nat.mul_assoc]
      _ = u i * 2 ^ (149 * (i + 1)) * r := by rw [hstep i hi, Nat.mul_right_comm]
      _ = a * r ^ (i + 1 + 1) := by rw [ih (Nat.lt_of_succ_lt hi), Nat.mul_assoc, ← Nat.pow_succ]

end Sys2Proof.Machine

open Sys2Proof Sys2Proof.Machine

/-- Settles O39: the ratio is positive, so products keep the sign; exact products multiply by the ratio. -/
theorem multiplicativeRampProperties : Obligations.MultiplicativeRampProperties := by
  unfold Obligations.MultiplicativeRampProperties
  intro s a b c d legal n t0 x0 x1 first final ratio hn hr hb hc hs
  obtain ⟨-, t, he, written⟩ := executes_vrampm (a := a) hn hr hb hc hs
  have ramp : RampWritten (fun i => mulRampValue first ratio (i + 1)) final t0 n s t := written
  obtain ⟨hfirst, -, hfirstSign⟩ := clampToFloor_spec legal hb
  obtain ⟨-, -, hfinalSign⟩ := clampToFloor_spec legal hc
  refine ⟨t, he, ramp.final, fun i hi => ?_, fun _ hproduct hproducts i hi => ?_⟩
  · rcases Nat.lt_or_ge (i + 1) n with hlt | hge
    · obtain ⟨hratio, hsign, hpos⟩ := rampRatio_clamped legal s.cfg.ratio hb hc (n := n) (by omega)
      obtain ⟨-, helement⟩ := fSign_mulRampValue hratio hsign hpos hfirst.1 (i + 1)
      rw [ramp.element i hlt]
      exact helement.trans hfirstSign
    · rw [show t0 + i = t0 + n - 1 by omega, ramp.final]
      exact hfinalSign.trans hs.symm
  · refine units_of_exact_products (u := fun i => fUnits (t.dmemWord (t0 + i))) ?_ (fun j hj => ?_) hi
    · rw [ramp.element 0 (by omega)]
      exact hproduct
    · rw [← Nat.add_assoc, ramp.element_succ hj]
      exact hproducts j hj

end

section
/-! SUPPORT. The unity filter of R225: products with a zero are zeros, and a zero added leaves a finite value as it is
up to the sign of a zero (R16). -/

namespace Sys2Proof.Machine

/-! ## Zeros -/

theorem finite_of_fMagBits_eq_zero {z : Word} (h : fMagBits z = 0) : Finite z :=
  finite_of_fUnits_eq_zero ((fUnits_eq_zero_iff z).2 h)

/-- The only patterns of magnitude 0 are the two signed zeros. -/
theorem eq_zero_or_negZero {z : Word} (h : fMagBits z = 0) : z = 0#32 ∨ z = 0x80000000#32 := by
  cases hs : fSign z
  · exact .inl (eq_of_fSign_fMagBits hs h)
  · exact .inr ((eq_negZero_iff z).2 ⟨hs, h⟩)

/-- +0 times a finite value is a zero. -/
theorem fMagBits_zero_fmul {x : Word} (hx : Finite x) : fMagBits (fmul 0#32 x) = 0 := by
  have hzero : Finite 0#32 := by decide
  rw [fmul_of_finite hzero hx, show fUnits 0#32 = 0 from rfl, Nat.zero_mul, roundNearest,
    nearestBits_zero (Nat.two_pow_pos _)]
  exact fMagBits_fPack _ (by decide)

/-- +0 added leaves every finite pattern but -0 as it is. -/
theorem fadd_posZero {x : Word} (hx : Finite x) (hne : x ≠ 0x80000000#32) : fadd x 0#32 = x := by
  have hzero : Finite 0#32 := by decide
  rw [fadd_of_finite hx hzero, show fValue 0#32 = 0 from rfl, Int.add_zero]
  split
  next hvalue =>
    obtain rfl | hneg := eq_zero_or_negZero ((fValue_eq_zero_iff x).1 hvalue)
    · rfl
    · exact absurd hneg hne
  next hvalue =>
    rw [fValue_neg_iff hvalue, natAbs_fValue]
    exact roundNearest_exact hx Nat.one_pos (Nat.mul_one _).symm

/-! ## Copies -/

/-- `y` is a copy of `x` up to the sign of a zero: -0 may have become +0 (R16; log 21). -/
def CopyUpToZero (x y : Word) : Prop := y = x ∨ (x = 0x80000000#32 ∧ y = 0#32)

section
variable {x y z : Word}

theorem CopyUpToZero.finite (h : CopyUpToZero x y) (hx : Finite x) : Finite y := by
  obtain rfl | ⟨-, rfl⟩ := h
  · exact hx
  · decide

/-- Adding a zero keeps a copy one. -/
theorem CopyUpToZero.fadd (h : CopyUpToZero x y) (hx : Finite x) (hz : fMagBits z = 0) :
    CopyUpToZero x (fadd y z) := by
  obtain rfl | rfl := eq_zero_or_negZero hz
  · obtain rfl | ⟨hneg, rfl⟩ := h
    · by_cases hneg : y = 0x80000000#32
      · exact .inr ⟨hneg, hneg ▸ by decide⟩
      · exact .inl (fadd_posZero hx hneg)
    · exact .inr ⟨hneg, by decide⟩
  · rwa [fadd_negZero (h.finite hx).1]

/-- Subtracting a zero keeps a copy one. -/
theorem CopyUpToZero.fsub (h : CopyUpToZero x y) (hx : Finite x) (hz : fMagBits z = 0) :
    CopyUpToZero x (fsub y z) :=
  h.fadd hx ((fMagBits_fNegate z).trans hz)

end

/-! ## The unity filter -/

/-- The coefficients `b` = (1, 0, 0), `a` = (0, 0) of R225. -/
abbrev unityBiquad : Biquad := ⟨0x3F800000#32, 0#32, 0#32, 0#32, 0#32⟩

/-- A DF-I history without a NaN or an infinity. -/
structure HistoryI.IsFinite (h : HistoryI) : Prop where
  x1 : Finite h.x1
  x2 : Finite h.x2
  y1 : Finite h.y1
  y2 : Finite h.y2

/-- From a finite history the unity filter copies a finite input, and its history stays finite (R222, R225). -/
theorem stepI_unity {x : Word} {h : HistoryI} (hx : Finite x) (hh : h.IsFinite) :
    CopyUpToZero x (stepI unityBiquad x h).1 ∧ (stepI unityBiquad x h).2.IsFinite := by
  have hone : CopyUpToZero x (fmul 0x3F800000#32 x) := .inl (one_fmul hx.1)
  have hcopy : CopyUpToZero x (stepI unityBiquad x h).1 :=
    (((hone.fadd hx (fMagBits_zero_fmul hh.x1)).fadd hx (fMagBits_zero_fmul hh.x2)).fsub hx
      (fMagBits_zero_fmul hh.y1)).fsub hx (fMagBits_zero_fmul hh.y2)
  exact ⟨hcopy, hx, hh.x1, hcopy.finite hx, hh.y1⟩

theorem isFinite_kernelHistory_unity {x : Nat → Word} {start : HistoryI} (hx : ∀ j, Finite (x j))
    (hstart : start.IsFinite) (k : Nat) : (kernelHistory (stepI unityBiquad) x start k).IsFinite := by
  induction k with
  | zero => exact hstart
  | succ k ih => exact (stepI_unity (hx k) ih).2

end Sys2Proof.Machine

open Sys2Proof Sys2Proof.Machine

/-- Settles O53: the history stays finite, so every product but the first is a zero, and zeros leave the input as it is
up to the sign of a zero. -/
theorem unityFilterCopies : Obligations.UnityFilterCopies := by
  unfold Obligations.UnityFilterCopies
  intro x k hx y
  have hzero : Finite 0#32 := by decide
  have hstart : HistoryI.IsFinite ⟨0#32, 0#32, 0#32, 0#32⟩ := ⟨hzero, hzero, hzero, hzero⟩
  have hcopy : CopyUpToZero (x k) y := (stepI_unity (hx k) (isFinite_kernelHistory_unity hx hstart k)).1
  refine ⟨fun hne => ?_, fun heq => ?_⟩
  · exact hcopy.resolve_right fun h => hne h.1
  · exact hcopy.symm.imp And.right fun h => h.trans heq

end

section
/-! SUPPORT. The region checks of the filters in their order (R221, R302). -/

namespace Sys2Proof.Machine

section
variable {s : State} {w : Word} {i : Instr} {words : Nat} {filter : Nat → Nat → Nat → Nat → Memory → Memory}
  {a b c d : RReg}

/-- A filter with a count that is not 0 takes the fault of the first of its regions, descriptor, source, target, that
leaves data memory (R221, R302). -/
theorem executes_runFilter_dmemRange (hw : decode w = .instr i) (he : exec i s = runFilter words filter a b c d s)
    (hn : 0 < s.unsignedR d) :
    let faultAt := fun base => FaultTaken .dmemRange (BitVec.ofNat 32 (max base s.cfg.dmemWords))
    (s.cfg.dmemWords < s.unsignedR a + words → Executes w i s (faultAt (s.unsignedR a))) ∧
    (s.unsignedR a + words ≤ s.cfg.dmemWords → s.cfg.dmemWords < s.unsignedR b + s.unsignedR d →
      Executes w i s (faultAt (s.unsignedR b))) ∧
    (s.unsignedR a + words ≤ s.cfg.dmemWords → s.unsignedR b + s.unsignedR d ≤ s.cfg.dmemWords →
      s.cfg.dmemWords < s.unsignedR c + s.unsignedR d → Executes w i s (faultAt (s.unsignedR c))) := by
  refine ⟨fun hq => ?_, fun hq hx => ?_, fun hq hx hy => ?_⟩
  all_goals refine executes_vectorOp_fault hw hn he ?_
  · rw [filterChecks, rangeCheck_of_lt hq, firstFault_some]
  · rw [filterChecks, rangeCheck_eq_none.2 hq, firstFault_none, rangeCheck_of_lt hx, firstFault_some]
  · rw [filterChecks, rangeCheck_eq_none.2 hq, firstFault_none, rangeCheck_eq_none.2 hx, firstFault_none,
      rangeCheck_of_lt hy, firstFault_some]

end

end Sys2Proof.Machine

open Sys2Proof Sys2Proof.Machine

/-- Settles O47: the six share the checks of R221, with a descriptor of 10 or of 4 words. -/
theorem filterChecks : Obligations.FilterChecks := by
  unfold Obligations.FilterChecks
  intro s a b c d hd n q xs ys words faultAt
  have hn : 0 < s.unsignedR d := Nat.pos_of_ne_zero fun h => hd (BitVec.eq_of_toNat_eq h)
  simp only [List.forall_mem_cons]
  refine ⟨?_, ?_, ?_, ?_, ?_, ?_, nofun⟩
  all_goals exact executes_runFilter_dmemRange (decode_of_encode rfl rfl) rfl hn

end

section
/-! SUPPORT. The filters in one form (R220, R221): what a run latches from its descriptor, its element steps, and its
write-back of the history. -/

namespace Sys2Proof.Machine

/-! ## The form of a filter -/

/-- One filter in one mode: the size of its descriptor, the kernel and the gain that it latches from the descriptor at
a word, and how its history is latched and written back (R220, R221). -/
structure FilterForm (H : Type) where
  words : Nat
  kernel : Memory → Nat → Word → H → Word × H
  gain : Memory → Nat → Option Word
  load : Memory → Nat → H
  save : Nat → H → Memory → Memory

/-- `IIR2DI`, and with `macc` `IIR2DI.MACC` (R222). -/
def formI (macc : Bool) : FilterForm HistoryI where
  words := 10
  kernel m q := stepI (loadBiquad m q)
  gain m q := if macc then some (memWord m (q + 9)) else none
  load := loadHistoryI
  save := saveHistoryI

/-- `IIR2DII`, and with `macc` `IIR2DII.MACC` (R223). -/
def formII (macc : Bool) : FilterForm HistoryII where
  words := 10
  kernel m q := stepII (loadBiquad m q)
  gain m q := if macc then some (memWord m (q + 9)) else none
  load := loadHistoryII
  save := saveHistoryII

/-- `IIR1AP`, and with `macc` `IIR1AP.MACC` (R224). -/
def formAP (macc : Bool) : FilterForm Word where
  words := 4
  kernel m q := stepAP (loadOnePole m q)
  gain m q := if macc then some (memWord m (q + 3)) else none
  load m q := memWord m (q + 2)
  save := saveHistoryAP

namespace FilterForm

variable {H : Type} (f : FilterForm H)

/-- Memory and history before element `k` (R81, R221). -/
def before (q xs ys : Nat) (m : Memory) (k : Nat) : Memory × H :=
  filterLoop (f.kernel m q) (f.gain m q) xs ys k (m, f.load m q)

/-- Data memory after a run of `n` elements (R221). -/
def run (q xs ys n : Nat) (m : Memory) : Memory := f.save q (f.before q xs ys m n).2 (f.before q xs ys m n).1

/-- What element `k` answers: its output and the history after it. -/
def element (q xs ys : Nat) (m : Memory) (k : Nat) : Word × H :=
  f.kernel m q (memWord (f.before q xs ys m k).1 (xs + k)) (f.before q xs ys m k).2

variable (q xs ys : Nat) (m : Memory) (k : Nat)

/-- An element step writes its target word and no other (R81). -/
theorem memWord_before_succ (j : Nat) : memWord (f.before q xs ys m (k + 1)).1 j =
    if j = ys + k then targetWord (f.gain m q) (memWord (f.before q xs ys m k).1 (ys + k)) (f.element q xs ys m k).1
    else memWord (f.before q xs ys m k).1 j :=
  memWord_setWord _ _ _ _

theorem memByte_before_other {b : Nat} (h : b < 4 * ys ∨ 4 * (ys + k) ≤ b) :
    memByte (f.before q xs ys m k).1 b = memByte m b :=
  memByte_filterLoop_other _ _ _ _ _ _ _ h

end FilterForm

/-- The word that an element step writes in each mode (R221). -/
theorem targetWord_ite (macc : Bool) (g o yi : Word) :
    targetWord (if macc then some g else none) o yi = if macc then fadd o (fmul g yi) else yi := by
  cases macc <;> rfl

/-! ## The write-back of the history -/

section
variable (q : Nat) (m : Memory)

theorem memWord_saveHistoryI (h : HistoryI) (j : Nat) : memWord (saveHistoryI q h m) j =
    if j = q + 5 then h.x1 else if j = q + 6 then h.x2 else if j = q + 7 then h.y1 else if j = q + 8 then h.y2
    else memWord m j := by
  simp only [saveHistoryI, memWord_setWord]
  grind

theorem memByte_saveHistoryI_other (h : HistoryI) {b : Nat} (hb : b < 4 * (q + 5) ∨ 4 * (q + 9) ≤ b) :
    memByte (saveHistoryI q h m) b = memByte m b := by
  rw [saveHistoryI, memByte_setWord_other _ _ _ _ (by omega), memByte_setWord_other _ _ _ _ (by omega),
    memByte_setWord_other _ _ _ _ (by omega), memByte_setWord_other _ _ _ _ (by omega)]

theorem memWord_saveHistoryII (h : HistoryII) (j : Nat) : memWord (saveHistoryII q h m) j =
    if j = q + 5 then h.w1 else if j = q + 6 then h.w2 else memWord m j := by
  simp only [saveHistoryII, memWord_setWord]
  grind

theorem memByte_saveHistoryII_other (h : HistoryII) {b : Nat} (hb : b < 4 * (q + 5) ∨ 4 * (q + 7) ≤ b) :
    memByte (saveHistoryII q h m) b = memByte m b := by
  rw [saveHistoryII, memByte_setWord_other _ _ _ _ (by omega), memByte_setWord_other _ _ _ _ (by omega)]

end

/-! ## A filter that has run -/

/-- From `s` to `t` a run of `n` elements happened whole and nothing else (R132, R221). -/
structure FilterForm.Ran {H : Type} (f : FilterForm H) (q xs ys n : Nat) (s t : State) : Prop where
  onlyDmem : OnlyDmem s t
  dmem : t.dmem = f.run q xs ys n s.dmem

section
variable {H : Type} {f : FilterForm H}

/-- A word whose instruction is a filter of this form, with a count and its regions in range, runs it (R132, R221). -/
theorem FilterForm.executes {w : Word} {i : Instr} {s : State} {a b c d : RReg} (hw : decode w = .instr i)
    (he : exec i s = runFilter f.words f.run a b c d s) (h : FilterInRange s f.words a b c d) :
    Executes w i s (f.Ran (s.unsignedR a) (s.unsignedR b) (s.unsignedR c) (s.unsignedR d)) :=
  ⟨hw, _, he.trans (runFilter_of_inRange _ h), onlyDmem_advance s _, rfl⟩

section
variable {q xs ys n : Nat} {s t : State} (ran : f.Ran q xs ys n s t)
include ran

/-- A byte outside the target that the write-back leaves alone reads as before. -/
theorem FilterForm.Ran.dmemByte_other {byte : Nat} (htarget : byte < 4 * ys ∨ 4 * (ys + n) ≤ byte)
    (hsave : ∀ h m, memByte (f.save q h m) byte = memByte m byte) : t.dmemByte byte = s.dmemByte byte := by
  rw [State.dmemByte, ran.dmem, FilterForm.run, hsave]
  exact f.memByte_before_other q xs ys s.dmem n htarget

/-- A word holds what the write-back makes of the memory and the history after the last element. -/
theorem FilterForm.Ran.dmemWord (j : Nat) : t.dmemWord j =
    memWord (f.save q (f.before q xs ys s.dmem n).2 (f.before q xs ys s.dmem n).1) j := by
  rw [State.dmemWord, ran.dmem, FilterForm.run]

end

end

/-! ## The six instructions -/

section
variable (macc : Bool) {s : State} {a b c d : RReg}

theorem executes_formI (h : FilterInRange s 10 a b c d) :
    Executes (formatR 0x24#6 a b c d (if macc then 4#10 else 0#10))
      (if macc then .iir2diMacc a b c d else .iir2di a b c d) s
      ((formI macc).Ran (s.unsignedR a) (s.unsignedR b) (s.unsignedR c) (s.unsignedR d)) := by
  cases macc <;> exact FilterForm.executes (decode_of_encode rfl rfl) rfl h

theorem executes_formII (h : FilterInRange s 10 a b c d) :
    Executes (formatR 0x24#6 a b c d (if macc then 5#10 else 1#10))
      (if macc then .iir2diiMacc a b c d else .iir2dii a b c d) s
      ((formII macc).Ran (s.unsignedR a) (s.unsignedR b) (s.unsignedR c) (s.unsignedR d)) := by
  cases macc <;> exact FilterForm.executes (decode_of_encode rfl rfl) rfl h

theorem executes_formAP (h : FilterInRange s 4 a b c d) :
    Executes (formatR 0x24#6 a b c d (if macc then 6#10 else 2#10))
      (if macc then .iir1apMacc a b c d else .iir1ap a b c d) s
      ((formAP macc).Ran (s.unsignedR a) (s.unsignedR b) (s.unsignedR c) (s.unsignedR d)) := by
  cases macc <;> exact FilterForm.executes (decode_of_encode rfl rfl) rfl h

end

end Sys2Proof.Machine

open Sys2Proof Sys2Proof.Machine

/-- Settles O48: memory and history before each element are those of the loop, whose step is R222. -/
theorem directFormI : Obligations.DirectFormI := by
  unfold Obligations.DirectFormI
  intro macc s a b c d n q xs ys hn hq hx hy
  obtain ⟨hw, t, he, ran⟩ := executes_formI macc ⟨hn, hq, hx, hy⟩
  let before := (formI macc).before q xs ys s.dmem
  refine ⟨hw, t, he, ran.onlyDmem, fun byte htarget hhistory => ?_, fun k => memWord (before k).1,
    fun k => (before k).2.x1, fun k => (before k).2.x2, fun k => (before k).2.y1, fun k => (before k).2.y2,
    fun j => rfl, rfl, rfl, rfl, rfl, fun k _ => ⟨rfl, rfl, rfl, rfl, fun j => ?_⟩, fun j => ?_⟩
  · exact ran.dmemByte_other htarget fun h m => memByte_saveHistoryI_other q m h hhistory
  · rw [← targetWord_ite]
    exact (formI macc).memWord_before_succ q xs ys s.dmem k j
  · exact (ran.dmemWord j).trans (memWord_saveHistoryI q _ _ j)

/-- Settles O49: as for the direct form I, with the step of R223. -/
theorem directFormII : Obligations.DirectFormII := by
  unfold Obligations.DirectFormII
  intro macc s a b c d n q xs ys hn hq hx hy
  obtain ⟨hw, t, he, ran⟩ := executes_formII macc ⟨hn, hq, hx, hy⟩
  let before := (formII macc).before q xs ys s.dmem
  refine ⟨hw, t, he, ran.onlyDmem, fun byte htarget hhistory => ?_, fun k => memWord (before k).1,
    fun k => (before k).2.w1, fun k => (before k).2.w2, fun j => rfl, rfl, rfl, fun k _ => ⟨rfl, rfl, fun j => ?_⟩,
    fun j => ?_⟩
  · exact ran.dmemByte_other htarget fun h m => memByte_saveHistoryII_other q m h hhistory
  · rw [← targetWord_ite]
    exact (formII macc).memWord_before_succ q xs ys s.dmem k j
  · exact (ran.dmemWord j).trans (memWord_saveHistoryII q _ _ j)

/-- Settles O50: as for the direct form I, with the step of R224 and the one output as history. -/
theorem allPole : Obligations.AllPole := by
  unfold Obligations.AllPole
  intro macc s a b c d n q xs ys hn hq hx hy
  obtain ⟨hw, t, he, ran⟩ := executes_formAP macc ⟨hn, hq, hx, hy⟩
  let before := (formAP macc).before q xs ys s.dmem
  refine ⟨hw, t, he, ran.onlyDmem, fun byte htarget hhistory => ?_, fun k => memWord (before k).1,
    fun k => (before k).2, fun j => rfl, rfl, fun k _ => ⟨rfl, fun j => ?_⟩, fun j => ?_⟩
  · exact ran.dmemByte_other htarget fun h m => memByte_setWord_other m (q + 2) h byte hhistory
  · rw [← targetWord_ite]
    exact (formAP macc).memWord_before_succ q xs ys s.dmem k j
  · exact (ran.dmemWord j).trans (memWord_setWord _ _ _ _)

end

section
/-! SUPPORT. A filter continued over two runs (R225): the write-back stores exactly what the next run latches, and a
source and target apart from the descriptor do not see it. -/

namespace Sys2Proof.Machine

/-! ## Bytes from words -/

/-- The four bytes of a word, bits 7:0 first (R72). -/
theorem extract_bytesWord (b0 b1 b2 b3 : Byte) :
    (bytesWord b0 b1 b2 b3).extractLsb' 0 8 = b0 ∧ (bytesWord b0 b1 b2 b3).extractLsb' 8 8 = b1 ∧
    (bytesWord b0 b1 b2 b3).extractLsb' 16 8 = b2 ∧ (bytesWord b0 b1 b2 b3).extractLsb' 24 8 = b3 := by
  refine ⟨?_, ?_, ?_, ?_⟩
  · exact (extract_low _ _ 0 (by decide)).trans (extract_whole b0)
  · exact (extract_high _ _ 8 (by decide)).trans ((extract_low _ _ 0 (by decide)).trans (extract_whole b1))
  · exact (extract_high _ _ 16 (by decide)).trans
      ((extract_high _ _ 8 (by decide)).trans ((extract_low _ _ 0 (by decide)).trans (extract_whole b2)))
  · exact (extract_high _ _ 24 (by decide)).trans
      ((extract_high _ _ 16 (by decide)).trans ((extract_high _ _ 8 (by decide)).trans (extract_whole b3)))

/-- A byte of a memory is a byte of its word (R72). -/
theorem memByte_eq_extract_memWord (m : Memory) (b : Nat) :
    memByte m b = (memWord m (b / 4)).extractLsb' (8 * (b % 4)) 8 := by
  obtain ⟨h0, h1, h2, h3⟩ := extract_bytesWord (memByte m (4 * (b / 4))) (memByte m (4 * (b / 4) + 1))
    (memByte m (4 * (b / 4) + 2)) (memByte m (4 * (b / 4) + 3))
  have hb := Nat.div_add_mod b 4
  obtain h | h | h | h : b % 4 = 0 ∨ b % 4 = 1 ∨ b % 4 = 2 ∨ b % 4 = 3 := by omega
  all_goals rw [h] at hb ⊢
  · exact (congrArg _ hb.symm).trans h0.symm
  · exact (congrArg _ hb.symm).trans h1.symm
  · exact (congrArg _ hb.symm).trans h2.symm
  · exact (congrArg _ hb.symm).trans h3.symm

/-- Memories that hold the same words hold the same bytes. -/
theorem sameDmem_of_dmemWord {s t : State} (h : ∀ j, t.dmemWord j = s.dmemWord j) : SameDmem s t := fun b => by
  rw [State.dmemByte, memByte_eq_extract_memWord]
  exact (congrArg _ (h (b / 4))).trans (memByte_eq_extract_memWord _ b).symm

/-! ## The loop over two parts -/

section
variable {H : Type} (kernel : Word → H → Word × H) (gain : Option Word)

/-- The loop goes on where it stopped (R81). -/
theorem filterLoop_add (xs ys n k : Nat) (start : Memory × H) :
    filterLoop kernel gain xs ys (n + k) start =
      filterLoop kernel gain (xs + n) (ys + n) k (filterLoop kernel gain xs ys n start) := by
  induction k with
  | zero => rfl
  | succ k ih => rw [← Nat.add_assoc, filterLoop, filterLoop, ih, Nat.add_assoc xs, Nat.add_assoc ys]

end

/-! ## The write-back and the next run -/

/-- The write-back stays in the descriptor, replaces an earlier one, is what the next run latches as its history, and
leaves what it latches as kernel and gain; and kernel and gain are latched from the descriptor alone (R220, R221). -/
structure FilterForm.Lawful {H : Type} (f : FilterForm H) : Prop where
  within : ∀ q h, WritesWithin q f.words (f.save q h)
  save_save : ∀ q h h' m j, memWord (f.save q h (f.save q h' m)) j = memWord (f.save q h m) j
  load_save : ∀ q h m, f.load (f.save q h m) q = h
  kernel_save : ∀ q h m, f.kernel (f.save q h m) q = f.kernel m q
  gain_save : ∀ q h m, f.gain (f.save q h m) q = f.gain m q
  kernel_congr : ∀ q m m', (∀ j, InRegion q f.words j → memWord m j = memWord m' j) → f.kernel m q = f.kernel m' q
  gain_congr : ∀ q m m', (∀ j, InRegion q f.words j → memWord m j = memWord m' j) → f.gain m q = f.gain m' q

/-- Two memories hold the same words once the same history is written back to both. -/
def FilterForm.Agree {H : Type} (f : FilterForm H) (q : Nat) (m m' : Memory) : Prop :=
  ∀ h j, memWord (f.save q h m) j = memWord (f.save q h m') j

/-- The coefficients are latched from the descriptor alone. -/
theorem loadBiquad_congr {q : Nat} {m m' : Memory} (h : ∀ j, InRegion q 10 j → memWord m j = memWord m' j) :
    loadBiquad m q = loadBiquad m' q := by
  have hword := fun j (hj : q ≤ j) (hjq : j < q + 10) => h j ⟨hj, hjq⟩
  simp [loadBiquad, hword]

theorem lawful_formI (macc : Bool) : (formI macc).Lawful where
  within := writesWithin_saveHistoryI
  save_save q h h' m j := by simp only [formI, memWord_saveHistoryI]; grind
  load_save q h m := by simp [formI, loadHistoryI, memWord_saveHistoryI]
  kernel_save q h m := by simp [formI, loadBiquad, memWord_saveHistoryI]
  gain_save q h m := by simp [formI, memWord_saveHistoryI]
  kernel_congr _ _ _ h := congrArg stepI (loadBiquad_congr h)
  gain_congr _ _ _ h := congrArg (if macc then some · else none) (h _ ⟨Nat.le_add_right _ 9, Nat.lt_succ_self _⟩)

theorem lawful_formII (macc : Bool) : (formII macc).Lawful where
  within := writesWithin_saveHistoryII
  save_save q h h' m j := by simp only [formII, memWord_saveHistoryII]; grind
  load_save q h m := by simp [formII, loadHistoryII, memWord_saveHistoryII]
  kernel_save q h m := by simp [formII, loadBiquad, memWord_saveHistoryII]
  gain_save q h m := by simp [formII, memWord_saveHistoryII]
  kernel_congr _ _ _ h := congrArg stepII (loadBiquad_congr h)
  gain_congr _ _ _ h := congrArg (if macc then some · else none) (h _ ⟨Nat.le_add_right _ 9, Nat.lt_succ_self _⟩)

theorem lawful_formAP (macc : Bool) : (formAP macc).Lawful where
  within := writesWithin_saveHistoryAP
  save_save q h h' m j := by simp only [formAP, saveHistoryAP, memWord_setWord]; grind
  load_save q h m := memWord_setWord_same m (q + 2) h
  kernel_save q h m := by simp [formAP, loadOnePole, saveHistoryAP, memWord_setWord]
  gain_save q h m := by simp [formAP, saveHistoryAP, memWord_setWord]
  kernel_congr q m m' h := by
    have hword := fun j (hj : q ≤ j) (hjq : j < q + 4) => h j ⟨hj, hjq⟩
    simp [formAP, loadOnePole, hword]
  gain_congr _ _ _ h := congrArg (if macc then some · else none) (h _ ⟨Nat.le_add_right _ 3, Nat.lt_succ_self _⟩)

namespace FilterForm

variable {H : Type} {f : FilterForm H} (hf : f.Lawful) {q xs ys n n' : Nat} {m : Memory}
include hf

/-- Memories that agree once the history is written back agree outside the descriptor. -/
theorem Lawful.memWord_of_agree (h : H) {m m' : Memory} (hm : f.Agree q m m') {j : Nat}
    (hj : ¬ InRegion q f.words j) : memWord m j = memWord m' j := by
  rw [← (hf.within q h).outside m j hj, hm h j, (hf.within q h).outside m' j hj]

/-- They still do after the same word is written to both, outside the descriptor. -/
theorem Lawful.agree_setWord (w : Word) {m m' : Memory} (hm : f.Agree q m m') {k : Nat}
    (hk : ¬ InRegion q f.words k) : f.Agree q (memSetWord m k w) (memSetWord m' k w) := by
  intro h j
  have hsave := hf.within q h
  by_cases hj : j = k
  · subst hj
    rw [hsave.outside _ j hk, hsave.outside _ j hk, memWord_setWord_same, memWord_setWord_same]
  · rw [hsave.pointwise _ m j (memWord_setWord_other m w hj), hsave.pointwise _ m' j (memWord_setWord_other m' w hj),
      hm h j]

/-- After a run the next one latches the same kernel and gain, and the history that the run left. -/
theorem Lawful.before_run (hy : Apart q f.words ys n) (k : Nat) :
    f.before q (xs + n) (ys + n) (f.run q xs ys n m) k =
      filterLoop (f.kernel m q) (f.gain m q) (xs + n) (ys + n) k (f.run q xs ys n m, (f.before q xs ys m n).2) := by
  have hdescriptor : ∀ j, InRegion q f.words j → memWord (f.before q xs ys m n).1 j = memWord m j :=
    fun j hj => memWord_filterLoop_other _ _ _ _ (by omega)
  rw [before, run, hf.kernel_save, hf.gain_save, hf.load_save, hf.kernel_congr q _ m hdescriptor,
    hf.gain_congr q _ m hdescriptor]

/-- A loop whose source and target lie apart from the descriptor runs alike over two memories that the write-back makes
alike: it ends with the same history, and with such memories. -/
theorem Lawful.filterLoop_agree (kernel : Word → H → Word × H) (gain : Option Word) (start : H) {m m' : Memory}
    (hx : Apart q f.words xs n) (hy : Apart q f.words ys n) (hm : f.Agree q m m') {k : Nat} (hk : k ≤ n) :
    (filterLoop kernel gain xs ys k (m, start)).2 = (filterLoop kernel gain xs ys k (m', start)).2 ∧
    f.Agree q (filterLoop kernel gain xs ys k (m, start)).1 (filterLoop kernel gain xs ys k (m', start)).1 := by
  induction k with
  | zero => exact ⟨rfl, hm⟩
  | succ k ih =>
    obtain ⟨hhistory, hagree⟩ := ih (Nat.le_of_succ_le hk)
    have hsource := hf.memWord_of_agree start hagree (j := xs + k) (by omega)
    have htarget := hf.memWord_of_agree start hagree (j := ys + k) (by omega)
    simp only [filterLoop, hhistory, hsource, htarget]
    exact ⟨trivial, hf.agree_setWord _ hagree (by omega)⟩

/-- A run continued by another leaves every word as one run over both parts. -/
theorem Lawful.memWord_run_add (hx : Apart q f.words xs (n + n')) (hy : Apart q f.words ys (n + n')) (j : Nat) :
    memWord (f.run q (xs + n) (ys + n) n' (f.run q xs ys n m)) j = memWord (f.run q xs ys (n + n') m) j := by
  obtain ⟨hhistory, hagree⟩ := hf.filterLoop_agree (f.kernel m q) (f.gain m q) (f.before q xs ys m n).2
    (xs := xs + n) (ys := ys + n) (n := n') (by omega) (by omega)
    (fun h => hf.save_save q h (f.before q xs ys m n).2 (f.before q xs ys m n).1) (Nat.le_refl n')
  have hone : f.before q xs ys m (n + n') = filterLoop (f.kernel m q) (f.gain m q) (xs + n) (ys + n) n'
      ((f.before q xs ys m n).1, (f.before q xs ys m n).2) := filterLoop_add _ _ _ _ _ _ _
  rw [run, hf.before_run (by omega), run, run, hone, ← hhistory]
  exact hagree _ j

/-- Data memory after an instruction with count `n`: as before for count 0 (R80). -/
def apply (f : FilterForm H) (q xs ys n : Nat) (m : Memory) : Memory := if n = 0 then m else f.run q xs ys n m

/-- The same with parts of no elements. -/
theorem Lawful.memWord_apply_add (hx : Apart q f.words xs (n + n')) (hy : Apart q f.words ys (n + n')) (j : Nat) :
    memWord (f.apply q (xs + n) (ys + n) n' (f.apply q xs ys n m)) j = memWord (f.apply q xs ys (n + n') m) j := by
  rcases Nat.eq_zero_or_pos n with rfl | hn
  · simp only [apply, if_true, Nat.add_zero, Nat.zero_add]
  · rcases Nat.eq_zero_or_pos n' with rfl | hn'
    · rfl
    · rw [apply, apply, apply, if_neg (by omega), if_neg (by omega), if_neg (by omega)]
      exact hf.memWord_run_add hx hy j

end FilterForm

/-! ## The instructions -/

/-- The state after an instruction whose regions exist. -/
def FilterForm.next {H : Type} (f : FilterForm H) (a b c d : RReg) (s : State) : State :=
  { s with dmem := f.apply (s.unsignedR a) (s.unsignedR b) (s.unsignedR c) (s.unsignedR d) s.dmem }.advance

/-- A filter whose regions exist applies its form to data memory and moves on, with any count (R80, R132, R221). -/
theorem runFilter_eq_next {H : Type} (f : FilterForm H) {s : State} {a b c d : RReg}
    (hq : s.unsignedR a + f.words ≤ s.cfg.dmemWords) (hx : s.unsignedR b + s.unsignedR d ≤ s.cfg.dmemWords)
    (hy : s.unsignedR c + s.unsignedR d ≤ s.cfg.dmemWords) :
    runFilter f.words f.run a b c d s = .next (f.next a b c d s) := by
  rcases Nat.eq_zero_or_pos (s.unsignedR d) with hn | hn
  · rw [FilterForm.next, FilterForm.apply, if_pos hn]
    exact vectorOp_of_zero hn
  · rw [FilterForm.next, FilterForm.apply, if_neg (Nat.ne_of_gt hn)]
    exact runFilter_of_inRange _ ⟨hn, hq, hx, hy⟩

/-- Two instructions over two parts leave data memory as one over both (R225). -/
theorem exec_split {H : Type} {f : FilterForm H} (hf : f.Lawful) {i : RReg → RReg → RReg → RReg → Instr}
    (he : ∀ a b c d s, exec (i a b c d) s = runFilter f.words f.run a b c d s) {s : State}
    {a b c n1 b' c' n2 total : RReg} (hn : s.unsignedR n1 + s.unsignedR n2 = s.unsignedR total)
    (hb : s.unsignedR b' = s.unsignedR b + s.unsignedR n1) (hc : s.unsignedR c' = s.unsignedR c + s.unsignedR n1)
    (hq : s.unsignedR a + f.words ≤ s.cfg.dmemWords) (hx : s.unsignedR b + s.unsignedR total ≤ s.cfg.dmemWords)
    (hy : s.unsignedR c + s.unsignedR total ≤ s.cfg.dmemWords)
    (hqx : Apart (s.unsignedR a) f.words (s.unsignedR b) (s.unsignedR total))
    (hqy : Apart (s.unsignedR a) f.words (s.unsignedR c) (s.unsignedR total)) :
    ∃ s1 s2 t, exec (i a b c n1) s = .next s1 ∧ exec (i a b' c' n2) s1 = .next s2 ∧
      exec (i a b c total) s = .next t ∧ SameDmem s2 t := by
  have hsecond : runFilter f.words f.run a b' c' n2 (f.next a b c n1 s) =
      .next (f.next a b' c' n2 (f.next a b c n1 s)) :=
    runFilter_eq_next f hq (show s.unsignedR b' + s.unsignedR n2 ≤ s.cfg.dmemWords by omega)
      (show s.unsignedR c' + s.unsignedR n2 ≤ s.cfg.dmemWords by omega)
  refine ⟨_, _, _, (he ..).trans (runFilter_eq_next f hq (by omega) (by omega)), (he ..).trans hsecond,
    (he ..).trans (runFilter_eq_next f hq hx hy), sameDmem_of_dmemWord fun j => ?_⟩
  rw [← hn] at hqx hqy
  have hparts := hf.memWord_apply_add (m := s.dmem) hqx hqy j
  rw [← hb, ← hc, hn] at hparts
  exact hparts.symm

end Sys2Proof.Machine

open Sys2Proof Sys2Proof.Machine

/-- Settles O52: the form of each of the six meets the conditions under which two runs are one. -/
theorem splitRunEqualsOneRun : Obligations.SplitRunEqualsOneRun := by
  unfold Obligations.SplitRunEqualsOneRun
  simp only [List.forall_mem_cons]
  refine ⟨?_, ?_, ?_, ?_, ?_, ?_, nofun⟩
  all_goals intro s a b c n1 b' c' n2 total
  · exact exec_split (lawful_formI false) fun _ _ _ _ _ => rfl
  · exact exec_split (lawful_formII false) fun _ _ _ _ _ => rfl
  · exact exec_split (lawful_formAP false) fun _ _ _ _ _ => rfl
  · exact exec_split (lawful_formI true) fun _ _ _ _ _ => rfl
  · exact exec_split (lawful_formII true) fun _ _ _ _ _ => rfl
  · exact exec_split (lawful_formAP true) fun _ _ _ _ _ => rfl

end

section
/-! SUPPORT. Sums that need no rounding (R15, R16), and interpolation (R252): where the product of weight and difference
is a zero it gives its lower end. -/

namespace Sys2Proof.Machine

/-! ## The negated operand of a difference (R16) -/

theorem fSign_fNegate (x : Word) : fSign (fNegate x) = !fSign x := by
  rw [fSign, fNegate, BitVec.msb_xor, show (0x80000000#32).msb = true from rfl, Bool.xor_true, fSign]

theorem fValue_fNegate (x : Word) : fValue (fNegate x) = -fValue x := by
  rw [fValue, fValue, fSign_fNegate, fUnits, fUnits, fMagBits_fNegate]
  cases fSign x
  · rfl
  · exact (Int.neg_neg _).symm

theorem finite_fNegate_iff (x : Word) : Finite (fNegate x) ↔ Finite x := by
  rw [finite_iff_fMagBits, fMagBits_fNegate, ← finite_iff_fMagBits]

/-- A finite value less itself is +0, also for -0 (R16). -/
theorem fsub_self {x : Word} (hx : Finite x) : fsub x x = 0#32 := by
  rw [fsub, fadd_of_finite hx ((finite_fNegate_iff x).2 hx), fValue_fNegate, if_pos (Int.add_right_neg _),
    fSign_fNegate, Bool.and_not_self]
  rfl

/-! ## Sums and differences that need no rounding -/

theorem natAbs_orderKey (x : Word) : (orderKey x).natAbs = fMagBits x := natAbs_withSign _ _

section
variable {x y z : Word} (hx : Finite x) (hy : Finite y) (hz : Finite z)
include hx hy hz

/-- A sum that is a finite word's value is exact. -/
theorem fadd_exact (h : fValue x + fValue y = fValue z) : Finite (fadd x y) ∧ fValue (fadd x y) = fValue z := by
  have hkey : orderKey (fadd x y) = orderKey z := by
    rw [(orderKey_fadd hx hy).2, h, ← roundKey_fValue_mul hz Nat.one_pos, Int.natCast_one, Int.mul_one]
  have hbits : fMagBits (fadd x y) = fMagBits z := by rw [← natAbs_orderKey, hkey, natAbs_orderKey]
  refine ⟨by rwa [finite_iff_fMagBits, hbits, ← finite_iff_fMagBits], Int.le_antisymm ?_ ?_⟩
  · exact (fValue_le_iff_orderKey _ _).2 (Int.le_of_eq hkey)
  · exact (fValue_le_iff_orderKey _ _).2 (Int.le_of_eq hkey.symm)

/-- A difference that is a finite word's value is exact. -/
theorem fsub_exact (h : fValue x - fValue y = fValue z) : Finite (fsub x y) ∧ fValue (fsub x y) = fValue z :=
  fadd_exact hx ((finite_fNegate_iff y).2 hy) hz (by rw [fValue_fNegate, ← h, Int.sub_eq_add_neg])

end

/-! ## Interpolation (R252) -/

/-- Where weight times difference is a zero, interpolation gives the lower end, or +0 for a zero one (R252). -/
theorem lerp_of_zero_product {u v f : Word} (hu : Finite u) (hz : fMagBits (fmul f (fsub v u)) = 0) :
    lerp u v f = u ∨ (fUnits u = 0 ∧ lerp u v f = 0#32) := by
  have hcopy : CopyUpToZero u (lerp u v f) := CopyUpToZero.fadd (.inl rfl) hu hz
  exact hcopy.imp_right fun ⟨hneg, hzero⟩ => ⟨hneg ▸ rfl, hzero⟩

/-- The difference of the two largest values of opposite sign overflows (R15; log 21). -/
theorem fsub_max_min : fsub 0x7F7FFFFF#32 0xFF7FFFFF#32 = 0x7F800000#32 := by decide

end Sys2Proof.Machine

open Sys2Proof Sys2Proof.Machine

/-- Settles O42: with a finite difference the product is a zero, as its weight or its difference is +0; with an infinite
one it is +0 times infinity, the NaN. -/
theorem lerpCorners : Obligations.LerpCorners := by
  unfold Obligations.LerpCorners
  refine ⟨fun _ _ _ => rfl, fun u v hu _ hd => ?_, fun u f hu hf => ?_, ?_⟩
  · exact lerp_of_zero_product hu (fMagBits_zero_fmul hd)
  · refine lerp_of_zero_product hu ?_
    rw [fsub_self hu, fmul_comm]
    exact fMagBits_zero_fmul hf
  · rw [lerp, fsub_max_min]
    rfl

end

section
/-! SUPPORT. The indices of a table lookup (R253): within a table, and the remainder of the phase in a periodic one; and
the weight between two tables (R254), which is the exact fraction of the table index. -/

namespace Sys2Proof.Machine

/-! ## Sample indices (R253) -/

/-- In one-shot mode the index of the phase lies in the table (R253). -/
def PhaseInTable (d : WaveDesc) (p : DWord) : Prop := wrapBit d = false → 0 ≤ phaseIndex p ∧ phaseIndex p < d.len

section
variable {d : WaveDesc} {p : DWord}

/-- Both samples of a lookup lie in their table: the mask does not pass `L - 1`, and a one-shot index was checked. -/
theorem sampleIndices_lt (hlen : 1 ≤ d.len) (hphase : PhaseInTable d p) :
    sampleIndex d p < d.len ∧ nextSampleIndex d p < d.len := by
  cases hwrap : wrapBit d with
  | true =>
    have hmask : ∀ n : Nat, n &&& (d.len - 1) < d.len := fun n => Nat.lt_of_le_of_lt Nat.and_le_right (by omega)
    simp only [nextSampleIndex, sampleIndex, hwrap, if_true]
    exact ⟨hmask _, hmask _⟩
  | false =>
    obtain ⟨hlow, hhigh⟩ := hphase hwrap
    simp only [nextSampleIndex, sampleIndex, hwrap, Bool.false_eq_true, if_false]
    omega

/-- The index of a periodic table of `2 ^ k` samples is the phase index modulo its length, and the next one follows it
around the table. -/
theorem sampleIndices_of_wrap {k : Nat} (hk : k ≤ 31) (hlen : d.len = 2 ^ k) (hwrap : wrapBit d = true) :
    (sampleIndex d p : Int) = phaseIndex p % d.len ∧ (nextSampleIndex d p : Int) = (phaseIndex p + 1) % d.len := by
  have hsample : (sampleIndex d p : Int) = phaseIndex p % d.len := by
    rw [sampleIndex, if_pos hwrap, hlen, Nat.and_two_pow_sub_one_eq_mod, phaseIndex, natCast_two_pow,
      toInt_emod_two_pow (by omega), Int.natCast_emod, natCast_two_pow]
  refine ⟨hsample, ?_⟩
  rw [nextSampleIndex, if_pos hwrap, hlen, Nat.and_two_pow_sub_one_eq_mod, ← hlen, Int.natCast_emod, Int.natCast_add,
    hsample, Int.natCast_one, Int.emod_add_emod]

end

/-! ## The weight between two tables (R254) -/

/-- The fraction of a finite magnitude has at most 24 significant bits. -/
theorem exists_fraction_significand (w : Word) : ∃ m e, m ≤ 2 ^ 24 ∧ e ≤ 149 ∧ fUnits w % 2 ^ 149 = m * 2 ^ e := by
  obtain ⟨e, m, hbits, hm, he⟩ := exists_significand (fMagBits w)
  have hunits : fUnits w = m * 2 ^ e := by rw [fUnits, hbits, patternUnits_significand (Nat.le_of_lt hm) he]
  rcases Nat.le_total e 149 with hle | hge
  · refine ⟨m % 2 ^ (149 - e), e, Nat.le_trans (Nat.mod_le _ _) (Nat.le_of_lt hm), hle, ?_⟩
    rw [hunits, ← Nat.mul_mod_mul_right, ← Nat.pow_add, Nat.sub_add_cancel hle]
  · refine ⟨0, 0, Nat.zero_le _, Nat.zero_le _, ?_⟩
    rw [hunits, Nat.zero_mul]
    exact Nat.mod_eq_zero_of_dvd (Nat.dvd_mul_left_of_dvd (Nat.pow_dvd_pow 2 hge) m)

section
variable {w : Word} (hsign : fSign w = false)
include hsign

theorem fValue_sub_floorNonneg : fValue w - floorNonneg w * 2 ^ 149 = (fUnits w % 2 ^ 149 : Nat) := by
  rw [show fValue w = fUnits w from if_neg (by simp [hsign]), floorNonneg]
  omega

/-- Subtracting its floor leaves the fraction of a table index, without rounding (R254). -/
theorem fsub_floorNonneg (hw : Finite w) (hfloor : floorNonneg w ≤ 2 ^ 24) :
    Finite (fsub w (intToFloat (floorNonneg w))) ∧
      fValue (fsub w (intToFloat (floorNonneg w))) = (fUnits w % 2 ^ 149 : Nat) := by
  obtain ⟨m, e, hm, he, hfraction⟩ := exists_fraction_significand w
  obtain ⟨hfinite, hvalue, -, -⟩ := intToFloat_natCast_exact hfloor
  have hweight : fValue (roundToZero false (m * 2 ^ e) 1) = (fUnits w % 2 ^ 149 : Nat) := by
    rw [hfraction, fValue_roundToZero_of_significand hm (Nat.le_trans he (by decide))]
  rw [← hweight]
  refine fsub_exact hw hfinite (finite_roundToZero _ _ _) ?_
  rw [hvalue, hweight, fValue_sub_floorNonneg hsign]

end

end Sys2Proof.Machine

open Sys2Proof Sys2Proof.Machine

/-- Settles O45: the mask is the remainder, and the floor of the table index leaves its fraction. -/
theorem wavetableIndices : Obligations.WavetableIndices := by
  unfold Obligations.WavetableIndices
  refine ⟨fun d p k hk hlen hwrap => sampleIndices_of_wrap hk hlen hwrap, fun w hw hsign hfloor => ?_⟩
  obtain ⟨hfinite, hvalue⟩ := fsub_floorNonneg hsign hw hfloor
  refine ⟨hfinite, hvalue.trans (fValue_sub_floorNonneg hsign).symm, ?_⟩
  rw [hvalue]
  omega

end

section
/-! SUPPORT. The checks of `WLK` in their order (R251, R255), each said in the words of its rule. -/

namespace Sys2Proof.Machine

/-! ## What the checks ask -/

theorem isPowerOfTwo_iff (n : Nat) : isPowerOfTwo n = true ↔ ∃ k, n = 2 ^ k := by
  rw [isPowerOfTwo, decide_eq_true_eq]
  exact ⟨fun h => ⟨_, h⟩, fun ⟨k, hk⟩ => by rw [hk, Nat.log2_two_pow]⟩

/-- The validity test of the descriptor is R251, condition by condition. -/
theorem waveDescValid_iff (s : State) (q : Nat) : waveDescValid s (waveDesc s q) = true ↔ WaveDescOk s q := by
  simp only [waveDescValid, Bool.and_eq_true, Bool.or_eq_true, Bool.not_eq_true', decide_eq_true_eq, beq_iff_eq,
    isPowerOfTwo_iff, and_assoc, ← Bool.not_eq_true, ← imp_iff_not_or]
  exact Iff.rfl

section
variable {s : State} {q : Nat} {p : DWord} {w : Word}

/-- The second check: the descriptor is valid (R251). -/
def waveDescCheck (s : State) (q : Nat) : Option FaultRecord :=
  raiseIf (!waveDescValid s (waveDesc s q)) .waveDesc (BitVec.ofNat 32 q)

/-- The third check: a table index that is read is no NaN (R254). -/
def tableIndexCheck (d : WaveDesc) (w : Word) : Option FaultRecord :=
  raiseIf (decide (1 < d.ntab) && isNaN w) .waveIndex w

/-- The fourth check: a one-shot index lies in the table (R253). -/
def phaseCheck (d : WaveDesc) (p : DWord) : Option FaultRecord :=
  raiseIf (!wrapBit d && (decide (phaseIndex p < 0) || decide ((d.len : Int) ≤ phaseIndex p))) .sampleRange (intBits p)

theorem waveChecks_eq : waveChecks s q p w =
    [rangeCheck s q 4, waveDescCheck s q, tableIndexCheck (waveDesc s q) w, phaseCheck (waveDesc s q) p] := rfl

theorem waveDescCheck_eq_none_iff : waveDescCheck s q = none ↔ WaveDescOk s q := by
  rw [waveDescCheck, raiseIf_eq_none, Bool.not_eq_false', waveDescValid_iff]

theorem tableIndexCheck_eq_none_iff {d : WaveDesc} : tableIndexCheck d w = none ↔ ¬ (1 < d.ntab ∧ isNaN w = true) := by
  rw [tableIndexCheck, raiseIf_eq_none, ← Bool.not_eq_true, Bool.and_eq_true, decide_eq_true_eq]

theorem phaseCheck_eq_none_iff {d : WaveDesc} : phaseCheck d p = none ↔ PhaseInTable d p := by
  rw [phaseCheck, raiseIf_eq_none, PhaseInTable]
  simp only [Bool.and_eq_false_imp, Bool.or_eq_false_iff, Bool.not_eq_true', decide_eq_false_iff_not, Int.not_lt,
    Int.not_le]

/-! ## The first check that fails (R255) -/

theorem firstFault_waveChecks_dmemRange (hq : s.cfg.dmemWords < q + 4) :
    firstFault (waveChecks s q p w) = some ⟨.dmemRange, BitVec.ofNat 32 (max q s.cfg.dmemWords)⟩ := by
  rw [waveChecks_eq, rangeCheck_of_lt hq, firstFault_some]

variable (hq : q + 4 ≤ s.cfg.dmemWords)
include hq

theorem firstFault_waveChecks_waveDesc (hdesc : ¬ WaveDescOk s q) :
    firstFault (waveChecks s q p w) = some ⟨.waveDesc, BitVec.ofNat 32 q⟩ := by
  have hfails : waveDescCheck s q = some _ := raiseIf_of_ne_none (mt waveDescCheck_eq_none_iff.1 hdesc)
  rw [waveChecks_eq, rangeCheck_eq_none.2 hq, firstFault_none, hfails, firstFault_some]

variable (hdesc : WaveDescOk s q)
include hdesc

theorem firstFault_waveChecks_waveIndex (hindex : 1 < (waveDesc s q).ntab ∧ isNaN w = true) :
    firstFault (waveChecks s q p w) = some ⟨.waveIndex, w⟩ := by
  have hfails : tableIndexCheck (waveDesc s q) w = some _ :=
    raiseIf_of_ne_none fun h => tableIndexCheck_eq_none_iff.1 h hindex
  rw [waveChecks_eq, rangeCheck_eq_none.2 hq, firstFault_none, waveDescCheck_eq_none_iff.2 hdesc, firstFault_none, hfails,
    firstFault_some]

/-- With the table index accepted the check of the phase is left. -/
theorem firstFault_waveChecks_of_tableIndex (hindex : ¬ (1 < (waveDesc s q).ntab ∧ isNaN w = true)) :
    firstFault (waveChecks s q p w) = phaseCheck (waveDesc s q) p := by
  rw [waveChecks_eq, rangeCheck_eq_none.2 hq, firstFault_none, waveDescCheck_eq_none_iff.2 hdesc, firstFault_none,
    tableIndexCheck_eq_none_iff.2 hindex, firstFault_none, firstFault_singleton]

end

/-! ## The tables in memory (R255) -/

/-- Sample `k` of table `t` lies before the end of the table array. -/
theorem tableSample_lt {base len tables t k : Nat} (ht : t < tables) (hk : k < len) :
    base + t * len + k < base + tables * len := by
  have hnext : (t + 1) * len ≤ tables * len := Nat.mul_le_mul_right len ht
  rw [Nat.succ_mul] at hnext
  omega

/-! ## The instruction (R256) -/

theorem exec_wlk (a : FReg) (b : PReg) (c : RReg) (d : FReg) (s : State) : exec (.wlk a b c d) s =
    attempt (waveChecks s (s.readR c).toNat (s.readP b) (s.readF d))
      (fun s => (s.writeF a (waveValue s (waveDesc s (s.readR c).toNat) (s.readP b) (s.readF d))).advance) s := rfl

end Sys2Proof.Machine

open Sys2Proof Sys2Proof.Machine

/-- Settles O43: no check fails, and the value is that of R254 with the descriptor's words read in place. -/
theorem wavetableLookup : Obligations.WavetableLookup := by
  unfold Obligations.WavetableLookup
  intro s a d b c q base len ntab mode i f w i0 i1 intra below hq hdesc hindex hphase
  have haccepted : ¬ (1 < ntab ∧ isNaN w = true) := fun ⟨htables, hNaN⟩ => absurd (hindex htables) (by simp [hNaN])
  have hpass : firstFault (waveChecks s q (s.readP b) w) = none :=
    (firstFault_waveChecks_of_tableIndex hq hdesc haccepted).trans (phaseCheck_eq_none_iff.2 hphase)
  exact executes_attempt (decode_of_encode rfl rfl) (exec_wlk a b c d s) hpass (onlyF_writeF s a _)

/-- Settles O44: one lemma per check, and both sample indices below the length. -/
theorem wavetableChecks : Obligations.WavetableChecks := by
  unfold Obligations.WavetableChecks
  intro s a d b c word q base len ntab wrap i w inTable
  have hw : decode word = .instr (.wlk a b c d) := decode_of_encode rfl rfl
  have hfault := fun cause info => executes_attempt_fault (cause := cause) (info := info) hw (exec_wlk a b c d s)
  refine ⟨fun hq => ?_, fun hq hdesc => ?_, fun hq hdesc htables hNaN => ?_, fun hq hdesc hindex hwrap hout => ?_,
    fun hdesc hphase table ht => ?_⟩
  · exact hfault _ _ (firstFault_waveChecks_dmemRange hq)
  · exact hfault _ _ (firstFault_waveChecks_waveDesc hq hdesc)
  · exact hfault _ _ (firstFault_waveChecks_waveIndex hq hdesc ⟨htables, hNaN⟩)
  · have hfails : phaseCheck (waveDesc s q) (s.readP b) = some ⟨.sampleRange, i⟩ :=
      raiseIf_of_ne_none fun h => hout (phaseCheck_eq_none_iff.1 h hwrap)
    exact hfault _ _ ((firstFault_waveChecks_of_tableIndex hq hdesc hindex).trans hfails)
  · obtain ⟨hlen, -, -, -, hinside⟩ := hdesc
    obtain ⟨h0, h1⟩ := sampleIndices_lt (d := waveDesc s q) hlen hphase
    exact ⟨tableSample_lt ht h0, tableSample_lt ht h1, hinside⟩

end

section
/-! SUPPORT. The scalar float instructions (R270 to R276): what an instruction that writes one float register leaves,
and results of the primitives by the class of their operands or, where no rounding is needed, by their exact value. -/

namespace Sys2Proof.Machine

/-! ## The instructions -/

/-- A word whose instruction finishes by writing `F[a]`. -/
theorem executes_finishF {s : State} {w : Word} {i : Instr} {a : FReg} {v : Word} (hw : decode w = .instr i)
    (he : exec i s = finishF a v s) : Executes w i s (OnlyF a v) :=
  ⟨hw, _, he, onlyF_writeF s a v⟩

/-! ## Infinities (R16) -/

/-- Infinities of opposite sign have no sum (R271). -/
theorem fadd_opposite_infinities : fadd 0x7F800000#32 0xFF800000#32 = 0x7FC00000#32 :=
  (fadd_isInf_isInf (by decide) (by decide)).trans (if_neg (by decide))

/-- An infinity less itself is a sum of opposite infinities (R272). -/
theorem fsub_infinity_self : fsub 0x7F800000#32 0x7F800000#32 = 0x7FC00000#32 := fadd_opposite_infinities

/-- A zero times an infinity has no value (R273). -/
theorem fmul_zero_infinity : fmul 0#32 0x7F800000#32 = 0x7FC00000#32 := by
  rw [fmul_comm, fmul_isInf (by decide) (by decide), if_pos (by decide)]

/-! ## Results that need no rounding (R15) -/

/-- A value that is not 0 has one pattern. -/
theorem eq_of_fValue_eq {x y : Word} (hy : fValue y ≠ 0) (h : fValue x = fValue y) : x = y := by
  have hunits : fUnits x = fUnits y := by rw [← natAbs_fValue, h, natAbs_fValue]
  refine eq_of_fSign_fMagBits ?_ (patternUnits_inj.1 hunits)
  rw [← fValue_neg_iff hy, ← h, fValue_neg_iff (h ▸ hy)]

section
variable {x y z : Word} (hx : Finite x) (hy : Finite y) (hz : Finite z)
include hx hy hz

/-- A sum that is a word's value other than 0 is that word. -/
theorem fadd_eq_of_fValue (hne : fValue z ≠ 0) (h : fValue x + fValue y = fValue z) : fadd x y = z :=
  eq_of_fValue_eq hne (fadd_exact hx hy hz h).2

/-- A difference that is a word's value other than 0 is that word. -/
theorem fsub_eq_of_fValue (hne : fValue z ≠ 0) (h : fValue x - fValue y = fValue z) : fsub x y = z :=
  eq_of_fValue_eq hne (fsub_exact hx hy hz h).2

/-- A product that is a word's magnitude, with that word's sign, is that word, also where it is a zero. -/
theorem fmul_eq_of_fUnits (hsign : (fSign x != fSign y) = fSign z) (h : fUnits x * fUnits y = fUnits z * 2 ^ 149) :
    fmul x y = z := by
  rw [fmul_of_finite hx hy, hsign, roundNearest_exact hz (Nat.two_pow_pos _) h]

end

/-- An integer that is a word's value other than 0 converts to that word, however large it is. -/
theorem intToFloat_eq_of_fValue {k : Int} {x : Word} (hx : Finite x) (hk : k ≠ 0) (h : fValue x = k * 2 ^ 149) :
    intToFloat k = x := by
  have hne : fValue x ≠ 0 := by omega
  have hsign : decide (k < 0) = fSign x := by
    rw [← fValue_neg_iff hne, decide_eq_decide]
    omega
  have hunits : k.natAbs * 2 ^ 149 = fUnits x * 1 := by
    rw [← natAbs_fValue]
    omega
  rw [intToFloat, hsign, roundNearest_exact hx Nat.one_pos hunits]

/-! ## Results that are rounded (R15) -/

/-- Twice the largest finite value overflows (R271). -/
theorem fadd_max_self : fadd 0x7F7FFFFF#32 0x7F7FFFFF#32 = 0x7F800000#32 := by decide

/-- The largest integer rounds up to 2^31, and 2^24 + 1 is a tie that goes to the even significand (R276). -/
theorem intToFloat_rounded : intToFloat 0x7FFFFFFF = 0x4F000000#32 ∧ intToFloat 16777217 = 0x4B800000#32 := by decide

end Sys2Proof.Machine

open Sys2Proof Sys2Proof.Machine

/-- Settles O23: each finishes by writing its register; the printed results follow from their operands' classes, or are
exact, or are rounded. -/
theorem scalarFloat : Obligations.ScalarFloat := by
  unfold Obligations.ScalarFloat
  refine ⟨fun s a b c r => ⟨?_, ?_, ?_, ?_, ?_, ?_⟩, fadd_opposite_infinities, fadd_negZero (by decide),
    fadd_negZero (by decide), fadd_max_self, ?_, ?_, fsub_infinity_self, ?_, fmul_zero_infinity, ?_, ?_,
    intToFloat_rounded.1, ?_, intToFloat_rounded.2, ?_, fun _ => fsub_self, fun _ hk => (intToFloat_exact hk).2⟩
  · exact executes_finishF (decode_of_encode rfl rfl) rfl
  · exact executes_finishF (decode_of_encode rfl rfl) rfl
  · exact executes_finishF (decode_of_encode rfl rfl) rfl
  · exact executes_finishF (decode_of_encode rfl rfl) rfl
  · exact executes_finishR (decode_of_encode rfl rfl) rfl rfl
  · exact executes_finishF (decode_of_encode rfl rfl) rfl
  · exact fadd_eq_of_fValue (by decide) (by decide) (by decide) (by decide) (by decide)
  · exact fadd_eq_of_fValue (by decide) (by decide) (by decide) (by decide) (by decide)
  · exact fsub_eq_of_fValue (by decide) (by decide) (by decide) (by decide) (by decide)
  · exact fmul_eq_of_fUnits (by decide) (by decide) (by decide) (by decide) (by decide)
  · exact fmul_eq_of_fUnits (by decide) (by decide) (by decide) (by decide) (by decide)
  · exact intToFloat_eq_of_fValue (by decide) (by decide) (by decide)
  · exact intToFloat_eq_of_fValue (by decide) (by decide) (by decide)

end

section
/-! SUPPORT. Which fault a cycle takes (R302, R303): its checks look at the registers, `PC`, the memories and the
parameters, whatever the status bits, the fault record and the host's fields hold. -/

namespace Sys2Proof.Machine

/-- A cycle that ends with a fault did the fault action and nothing else (R303). -/
theorem CycleOutcome.eq_takeFault {mayHalt : Prop} {s t : State} (h : CycleOutcome mayHalt s (.next t))
    (hs : s.faulted = false) (ht : t.faulted = true) : ∃ record, t = takeFault record s := by
  cases h with
  | fault record => exact ⟨record, rfl⟩
  | halt => exact absurd (hs.symm.trans ht) Bool.false_ne_true
  | data change =>
    cases change
    exact absurd (hs.symm.trans ht) Bool.false_ne_true

/-- The registers, `PC`, memories and parameters of `s`, all else as in `control`. -/
def State.under (s control : State) : State :=
  { control with r := s.r, f := s.f, p := s.p, pc := s.pc, imem := s.imem, dmem := s.dmem, cfg := s.cfg }

/-- The data of `s` decide whether `op` takes a fault there, and which record it writes. -/
inductive FaultFromData (op : State → Result) (s : State) : Prop where
  | fault (record : FaultRecord)
      (h : ∀ control, op (s.under control) = .next (takeFault record (s.under control)))
  | effect (h : ∀ control, ∃ t, op (s.under control) = .next t ∧ t.faulted = control.faulted)

section
variable {op op' : State → Result} {s : State} {checks : State → List (Option FaultRecord)}
  {effect : State → State}

theorem FaultFromData.congr (h : FaultFromData op s) (heq : ∀ control, op' (s.under control) = op (s.under control)) :
    FaultFromData op' s := by
  cases h with
  | fault record h => exact .fault record fun control => (heq control).trans (h control)
  | effect h => exact .effect fun control => heq control ▸ h control

theorem faultFromData_next (hop : ∀ u, op u = .next (effect u)) (heffect : ∀ u, (effect u).faulted = u.faulted) :
    FaultFromData op s :=
  .effect fun _ => ⟨_, hop _, heffect _⟩

/-- An attempt whose checks see the data alone. -/
theorem faultFromData_attempt (hop : ∀ u, op u = attempt (checks u) effect u)
    (hchecks : ∀ control, checks (s.under control) = checks s) (heffect : ∀ u, (effect u).faulted = u.faulted) :
    FaultFromData op s := by
  have hsame : ∀ control, firstFault (checks (s.under control)) = firstFault (checks s) :=
    fun control => congrArg firstFault (hchecks control)
  cases hfault : firstFault (checks s) with
  | some record => exact .fault record fun control => (hop _).trans (attempt_of_some ((hsame control).trans hfault))
  | none =>
    exact .effect fun control => ⟨_, (hop _).trans (attempt_of_none ((hsame control).trans hfault)), heffect _⟩

/-- A vector operation whose count and checks see the data alone. -/
theorem faultFromData_vectorOp {count : State → Nat} (hop : ∀ u, op u = vectorOp (count u) (checks u) effect u)
    (hcount : ∀ control, count (s.under control) = count s)
    (hchecks : ∀ control, checks (s.under control) = checks s) (heffect : ∀ u, (effect u).faulted = u.faulted) :
    FaultFromData op s := by
  by_cases hzero : count s = 0
  · exact .effect fun control => ⟨_, (hop _).trans (vectorOp_of_zero ((hcount control).trans hzero)), rfl⟩
  · have attempted : FaultFromData (fun u => attempt (checks u) effect u) s :=
      faultFromData_attempt (fun _ => rfl) hchecks heffect
    exact attempted.congr fun control => (hop _).trans (if_neg (hcount control ▸ hzero))

end

/-- What the checks of each instruction look at is data. -/
theorem exec_faultFromData (i : Instr) (s : State) : FaultFromData (exec i) s := by
  cases i with
  | lw | sw | flw | fsw | plw | psw | pldd | pfromf | pwrap | wlk =>
    exact faultFromData_attempt (fun _ => rfl) (fun _ => rfl) fun _ => rfl
  | vrampa | vrampm | iir2di | iir2dii | iir1ap | iir2diMacc | iir2diiMacc | iir1apMacc =>
    exact faultFromData_vectorOp (fun _ => rfl) (fun _ => rfl) (fun _ => rfl) fun _ => rfl
  | beqz | bnez => exact faultFromData_next (fun _ => rfl) fun _ => by split <;> rfl
  | _ => exact faultFromData_next (fun _ => rfl) fun _ => rfl

/-- A cycle at a word that is no instruction takes `ILLEGAL_INSTR` (R107). -/
theorem instructionStep_of_illegal {s : State} {why : Illegal} (inside : s.pc.toNat < s.cfg.imemWords)
    (h : decode (s.imemWord s.pc.toNat) = .illegal why) :
    instructionStep s = .next (takeFault ⟨.illegalInstr, fetchedWord s⟩ s) := by
  rw [instructionStep, if_pos (by simpa [fetchable] using inside), decodeBytes_fetchBytes, h]

/-- What the fetch and the decode look at is data too (R130). -/
theorem instructionStep_faultFromData (s : State) : FaultFromData instructionStep s := by
  by_cases inside : s.pc.toNat < s.cfg.imemWords
  · cases hw : decode (s.imemWord s.pc.toNat) with
    | instr i =>
      exact (exec_faultFromData i s).congr fun control =>
        instructionStep_of_decode (s := s.under control) inside hw
    | illegal why =>
      exact .fault ⟨.illegalInstr, fetchedWord s⟩ fun control =>
        instructionStep_of_illegal (s := s.under control) inside hw
  · exact .fault ⟨.fetchRange, s.pc⟩ fun control =>
      instructionStep_of_outside (s := s.under control) (Nat.not_lt.1 inside)

end Sys2Proof.Machine

open Sys2Proof Sys2Proof.Machine

/-- Settles O8: by what an instruction and a cycle can do. -/
theorem faultsArePrecise : Obligations.FaultsArePrecise := by
  unfold Obligations.FaultsArePrecise
  intro s t hs ht h
  have taken : ∃ record, t = takeFault record s := by
    obtain hstep | ⟨i, hexec⟩ := h
    · exact (hstep ▸ instructionStep_outcome s).eq_takeFault hs ht
    · exact (hexec ▸ exec_outcome i s).eq_takeFault hs ht
  obtain ⟨record, rfl⟩ := taken
  exact ⟨record.cause, record.info, takeFault_faultTaken record s⟩

end

section
/-! SUPPORT. A recorded fault and the way back from it (R38, R304): whatever writes of `CTRL` were pending, a fault that
a step leaves recorded is one that the cycle at its `PC` takes, and takes again. -/

namespace Sys2Proof.Machine

/-- `t` is what a cycle left that took a fault, and the cycle takes that fault from every state with its data. -/
def FaultRepeats (t : State) : Prop :=
  ∃ record u, t = takeFault record u ∧
    ∀ control, instructionStep (u.under control) = .next (takeFault record (u.under control))

/-- What every state holds between a cycle and the end of the writes of `CTRL` that waited for it. -/
structure CycleDone (t : State) : Prop where
  legal : t.cfg.legal = true
  pendingCtrl : t.pendingCtrl = []
  repeats : t.faulted = true → FaultRepeats t

section
variable {s t : State}

theorem faultRepeats_of_cycle (hs : s.faulted = false) (h : instructionStep s = .next t) (ht : t.faulted = true) :
    FaultRepeats t := by
  cases instructionStep_faultFromData s with
  | fault record again => exact ⟨record, s, Host.Outcome.next.inj (h.symm.trans (again s)), again⟩
  | effect unfaulted =>
    obtain ⟨u, hu, hf⟩ := unfaulted s
    cases h.symm.trans hu
    exact absurd ((hf.trans hs).symm.trans ht) Bool.false_ne_true

theorem FaultRepeats.run_eq_false (h : FaultRepeats t) : t.run = false := by
  obtain ⟨record, u, rfl, -⟩ := h
  rfl

/-- A cycle that starts with no fault and no STOP pending. -/
theorem cycleDone_of_cycle (legal : s.cfg.legal = true) (hp : s.pendingCtrl = []) (hs : s.faulted = false)
    (h : instructionStep s = .next t) : CycleDone t := by
  obtain ⟨-, -, hcfg, hpending, -⟩ := (h ▸ instructionStep_outcome s).outsideUntouched
  exact ⟨hcfg ▸ legal, hpending.trans hp, faultRepeats_of_cycle hs h⟩

/-! ## The actions of `CTRL` keep what a fault left -/

theorem CycleDone.stopSequencer (h : CycleDone s) : CycleDone (stopSequencer s) := by
  refine ⟨h.legal, h.pendingCtrl, fun hf => ?_⟩
  have repeats := h.repeats hf
  rwa [stopSequencer_ignored repeats.run_eq_false]

theorem CycleDone.clearFault (h : CycleDone s) : CycleDone (clearFault s) := by
  cases hr : s.run with
  | true => rwa [clearFault_ignored hr]
  | false => exact ⟨by simpa using h.legal, by simpa using h.pendingCtrl, by simp [hr]⟩

theorem CycleDone.startSequencer (h : CycleDone s) : CycleDone (startSequencer s) := by
  cases hf : s.faulted with
  | true => rwa [startSequencer_ignored (.inr hf)]
  | false => exact ⟨by simpa using h.legal, by simpa using h.pendingCtrl, by simp [hf]⟩

theorem CycleDone.stepCommand (h : CycleDone s) (ht : stepCommand s = .next t) : CycleDone t := by
  obtain ⟨-, hf, he⟩ | ⟨-, he⟩ := stepCommand_cases s
  · exact cycleDone_of_cycle (s := { s with halted := false }) h.legal h.pendingCtrl hf (he.symm.trans ht)
  · cases he.symm.trans ht
    exact h

theorem CycleDone.clearAndStart (h : CycleDone s) (v : Word) : CycleDone (clearAndStart v s) := by
  have cleared : CycleDone (if v.getLsbD 2 then Machine.clearFault s else s) := by
    split
    · exact h.clearFault
    · exact h
  rw [Machine.clearAndStart]
  split
  · exact cleared.startSequencer
  · exact cleared

theorem CycleDone.ctrlActions (h : CycleDone s) {v : Word} (ht : ctrlActions v s = .next t) : CycleDone t := by
  rw [ctrlActions_eq] at ht
  split at ht
  · exact (h.clearAndStart v).stepCommand ht
  · cases ht
    exact h.clearAndStart v

theorem CycleDone.finishStops {l : List Word} (h : CycleDone s) (ht : finishStops l s = .next t) : CycleDone t := by
  induction l generalizing s with
  | nil => cases ht; exact h
  | cons v rest ih =>
    obtain ⟨u, hu, hrest⟩ := andThen_eq_next.1 ht
    exact ih (h.stopSequencer.ctrlActions hu) hrest

/-- A step of a running sequencer ends with a cycle done and its pending writes of `CTRL` finished. -/
theorem cycleDone_of_step (legal : s.cfg.legal = true) (hr : s.run = true) (hf : s.faulted = false)
    (hturns : s.turns = []) (h : step s = .next t) : CycleDone t := by
  obtain ⟨u, hu, hrest⟩ := andThen_eq_next.1 ((step_of_sequencer legal hr (.inl hturns)).symm.trans h)
  have cycle : CycleDone u :=
    cycleDone_of_cycle (s := { s with turns := s.turns.tail, pendingCtrl := [] }) legal rfl hf hu
  exact cycle.finishStops hrest

/-! ## CLRFAULT and START -/

theorem hostWrite_start_ignored (h : s.run = true ∨ s.faulted = true) : hostWrite 4 4 1#32 s = .next s := by
  have hstart : hostWrite 4 4 1#32 s = .next (startSequencer s) := hostWrite_ctrl 1#32 s
  rw [hstart, startSequencer_ignored h]

theorem hostWrite_step_ignored (h : s.run = true ∨ s.faulted = true) : hostWrite 4 4 2#32 s = .next s :=
  (hostWrite_ctrl 2#32 s).trans (stepCommand_ignored h)

/-- A write of `CTRL.CLRFAULT` clears the record of a stopped sequencer (R38). -/
theorem hostWrite_clear (hr : s.run = false) :
    hostWrite 4 4 4#32 s = .next { s with faulted := false, cause := 0#8, fpc := 0#32, finfo := 0#32 } := by
  have hclear : hostWrite 4 4 4#32 s = .next (clearFault s) := hostWrite_ctrl 4#32 s
  rw [hclear, clearFault_of_stopped hr]

/-- `t` with the fault record cleared, START being the turn to come. -/
def cleared (t : State) : State :=
  { t with turns := [.hostWrite 4 4 1#32], faulted := false, cause := 0#8, fpc := 0#32, finfo := 0#32 }

/-- `t` with the fault record cleared and the sequencer started. -/
def restarted (t : State) : State := { cleared t with turns := [], run := true, halted := false }

/-- CLRFAULT, START and the cycle that follows, as a run of three steps (R304). -/
theorem run_clear_start (legal : t.cfg.legal = true) (hp : t.pendingCtrl = []) (hr : t.run = false) {u : State}
    (h : instructionStep (restarted t) = .next u) :
    Host.Core.run core 3 { t with turns := [.hostWrite 4 4 4#32, .hostWrite 4 4 1#32] } = .next u := by
  have hclear : step { t with turns := [.hostWrite 4 4 4#32, .hostWrite 4 4 1#32] } = .next (cleared t) :=
    (step_of_turn (s := { t with turns := [_, _] }) legal rfl).trans (hostWrite_clear (s := { t with turns := _ }) hr)
  have hstart : step (cleared t) = .next (restarted t) :=
    (step_of_turn (s := cleared t) legal rfl).trans (hostWrite_start (s := { cleared t with turns := [] }) hr rfl)
  have hcycle : step (restarted t) = .next u :=
    (step_eq_instructionStep (s := restarted t) legal rfl rfl hp).trans h
  calc Host.Core.run core 3 { t with turns := [.hostWrite 4 4 4#32, .hostWrite 4 4 1#32] }
    _ = Host.Core.run core 2 (cleared t) := run_succ_of_next core 2 hclear
    _ = Host.Core.run core 1 (restarted t) := run_succ_of_next core 1 hstart
    _ = .next u := run_succ_of_next core 0 hcycle

end

end Sys2Proof.Machine

open Sys2Proof Sys2Proof.Machine

/-- Settles O58: the recorded fault is one that its cycle takes from every state with the same data, the restarted one
among them. -/
theorem retryFaultsAgain : Obligations.RetryFaultsAgain := by
  unfold Obligations.RetryFaultsAgain
  intro s t legal hr hf hturns hstep ht
  have done := cycleDone_of_step legal hr hf hturns hstep
  obtain ⟨record, u, rfl, again⟩ := done.repeats ht
  exact ⟨hostWrite_start_ignored (.inr rfl), hostWrite_step_ignored (.inr rfl), _,
    run_clear_start done.legal done.pendingCtrl rfl (again (restarted (takeFault record u))),
    rfl, rfl, rfl, rfl, rfl, rfl, sameData_refl u⟩

end

section
/-! SUPPORT. The invariant right after reset (R340). -/

namespace Sys2Proof.Machine

/-- Legal parameters and canonical memories are all the invariant asks of what power-up leaves. -/
theorem inv_resetWith {cfg : Params} {imem dmem : Memory} (legal : cfg.legal = true) (iwf : imem.wf = true)
    (dwf : dmem.wf = true) (iwithin : imem.within cfg.imemWords = true) (dwithin : dmem.within cfg.dmemWords = true) :
    Inv (State.resetWith cfg imem dmem) :=
  have status : StatusOk (State.resetWith cfg imem dmem) := ⟨nofun, nofun⟩
  have pending : PendingOk (State.resetWith cfg imem dmem) := ⟨fun h => absurd rfl h, nofun⟩
  have record : RecordOk (State.resetWith cfg imem dmem) := ⟨fun _ => ⟨rfl, rfl, rfl⟩, nofun⟩
  ⟨legal, ⟨iwf, dwf, iwithin, dwithin⟩, status, pending, record⟩

end Sys2Proof.Machine

open Sys2Proof Sys2Proof.Machine

/-- Settles O13: the record, the status bits and the pending writes are 0 whatever the parameters and contents. -/
theorem invAtReset : Obligations.InvAtReset := by
  unfold Obligations.InvAtReset
  exact ⟨inv_resetWith (by decide) rfl rfl rfl rfl, fun _ _ _ => inv_resetWith⟩

end

section
/-! SUPPORT. Which words a reset inside an instruction leaves free: the model's lists of words and `WritesWord` name
the same ones, and the memory that the abandoned instruction leaves (R340; log 6, log 17). -/

namespace Sys2Proof.Machine

/-! ## Where an instruction stores -/

/-- The count of a vector instruction, and 1 for every other one. -/
def elementCount (i : Instr) (s : State) : Nat :=
  match i with
  | .vrampa _ _ _ d | .vrampm _ _ _ d | .iir2di _ _ _ d | .iir2diMacc _ _ _ d | .iir2dii _ _ _ d
  | .iir2diiMacc _ _ _ d | .iir1ap _ _ _ d | .iir1apMacc _ _ _ d => s.unsignedR d
  | _ => 1

section
variable {i : Instr} {s t : State} {j : Nat}

/-- An instruction stores here exactly when it ends without a fault and has an element (R80, R132). -/
theorem storesHere_eq (ht : exec i { s with faulted := false } = .next t) :
    storesHere i s = (!t.faulted && elementCount i s != 0) := by
  unfold storesHere elementCount
  rw [ht]
  cases i <;> simp

/-- A vector operation with a count ends without a fault exactly when its checks pass. -/
theorem vectorOp_faulted_iff {count : Nat} {checks : List (Option FaultRecord)} {effect : State → State}
    (hc : count ≠ 0) (he : (effect s).faulted = false) (h : vectorOp count checks effect s = .next t) :
    t.faulted = false ↔ ∀ c ∈ checks, c = none := by
  refine ⟨vectorOp_passed h hc, fun passed => ?_⟩
  cases (vectorOp_of_checked hc (firstFault_eq_none.2 passed)).symm.trans h
  exact he

/-- What performs checks and then an effect without a fault stores here exactly when it has an element and its checks
pass. A store is such an instruction with one element. -/
theorem storesHere_iff {checks : List (Option FaultRecord)} {effect : State → State}
    (hexec : exec i { s with faulted := false } = vectorOp (elementCount i s) checks effect { s with faulted := false })
    (he : (effect { s with faulted := false }).faulted = false) :
    storesHere i s = true ↔ elementCount i s ≠ 0 ∧ ∀ c ∈ checks, c = none := by
  obtain ⟨t, ht⟩ := (exec_outcome i { s with faulted := false }).next
  rw [storesHere_eq ht]
  by_cases hc : elementCount i s = 0
  · simp [hc]
  · simpa [hc] using vectorOp_faulted_iff hc he (hexec ▸ ht)

/-- An endpoint whose logarithm has a meaning is one that is finite (R205). -/
theorem rampUndefined_eq_false {x : Word} : rampUndefined x = false ↔ Finite x := Bool.or_eq_false_iff

/-- A store stores here exactly when the words at its effective address exist (R149). -/
theorem storesHere_store {b : RReg} {imm : Int} {count : Nat} {effect : State → State} (hone : elementCount i s = 1)
    (hexec : ∀ u, exec i u = attempt [rangeCheck u (effAddr u b imm) count] effect u)
    (he : (effect { s with faulted := false }).faulted = false) :
    storesHere i s = true ↔ effAddr s b imm + count ≤ s.cfg.dmemWords := by
  rw [storesHere_iff (checks := [rangeCheck s (effAddr s b imm) count]) ((hexec _).trans (by rw [hone]; rfl)) he, hone]
  simp [rangeCheck_eq_none]

/-- A filter stores here exactly when its count is not 0 and its three regions exist (R80, R221). -/
theorem storesHere_filter {words : Nat} {filter : Nat → Nat → Nat → Nat → Memory → Memory} {a b c d : RReg}
    (hcount : elementCount i s = s.unsignedR d) (hexec : ∀ u, exec i u = runFilter words filter a b c d u) :
    storesHere i s = true ↔ s.unsignedR d ≠ 0 ∧ s.unsignedR a + words ≤ s.cfg.dmemWords ∧
      s.unsignedR b + s.unsignedR d ≤ s.cfg.dmemWords ∧ s.unsignedR c + s.unsignedR d ≤ s.cfg.dmemWords := by
  rw [storesHere_iff (checks := filterChecks words a b c d s) ((hexec _).trans (by rw [hcount]; rfl)) rfl, hcount]
  simp [filterChecks, rangeCheck_eq_none]

/-- The words of `FilterWrites` are those of the model's list where the filter stores. -/
theorem filterWrites_iff {words history count : Nat} {filter : Nat → Nat → Nat → Nat → Memory → Memory}
    {a b c d : RReg} (hcount : elementCount i s = s.unsignedR d)
    (hexec : ∀ u, exec i u = runFilter words filter a b c d u) :
    FilterWrites s words history count a b c d j ↔ storesHere i s = true ∧
      j ∈ wordsFrom (s.unsignedR c) (s.unsignedR d) ++ wordsFrom (s.unsignedR a + history) count := by
  rw [storesHere_filter hcount hexec, List.mem_append, mem_wordsFrom, mem_wordsFrom, FilterWrites,
    Nat.pos_iff_ne_zero]
  simp only [and_assoc]

/-- A region of no words holds none. -/
theorem rampWrites_iff {a d : RReg} : RampWrites s a d j ↔ s.unsignedR d ≠ 0 ∧
    s.unsignedR a + s.unsignedR d ≤ s.cfg.dmemWords ∧ InRegion (s.unsignedR a) (s.unsignedR d) j := by
  omega

/-- `WritesWord` names the words of the model's list, where the instruction stores. -/
theorem writesWord_iff : WritesWord i s j ↔ storesHere i s = true ∧ j ∈ targetWords i s := by
  cases i with
  | sw a b imm =>
    rw [storesHere_store rfl (fun _ => exec_sw) rfl, targetWords, List.mem_singleton, WritesWord]
    omega
  | fsw a b imm =>
    rw [storesHere_store rfl (fun _ => exec_fsw) rfl, targetWords, List.mem_singleton, WritesWord]
    omega
  | psw a b imm =>
    rw [storesHere_store rfl (fun _ => exec_psw) rfl, targetWords, List.mem_pair, WritesWord]
    omega
  | vrampa a b c d =>
    rw [storesHere_iff (checks := [rangeCheck s (s.unsignedR a) (s.unsignedR d)]) rfl rfl, targetWords, mem_wordsFrom,
      WritesWord, rampWrites_iff]
    simp [elementCount, rangeCheck_eq_none, and_assoc]
  | vrampm a b c d =>
    rw [storesHere_iff (checks := [rangeCheck s (s.unsignedR a) (s.unsignedR d),
      raiseIf (rampUndefined (s.readF b) || rampUndefined (s.readF c)) .rampDomain 0#32,
      raiseIf (fSign (s.readF b) != fSign (s.readF c)) .rampSign 0#32]) rfl rfl, targetWords, mem_wordsFrom, WritesWord,
      rampWrites_iff]
    simp only [elementCount, List.forall_mem_cons, rangeCheck_eq_none, raiseIf_eq_none, Bool.or_eq_false_iff,
      rampUndefined_eq_false, bne_eq_false_iff_eq, fSign]
    tauto
  | iir2di a b c d | iir2diMacc a b c d | iir2dii a b c d | iir2diiMacc a b c d | iir1ap a b c d
  | iir1apMacc a b c d => exact filterWrites_iff rfl fun _ => rfl
  | _ => simp [WritesWord, targetWords]

/-- The abandoned words are those that the instruction at `PC` would have written, where `PC` names one (R340). -/
theorem mem_abandonedWords : j ∈ abandonedWords s ↔
    ∃ i, decode (s.imemWord s.pc.toNat) = .instr i ∧ s.pc.toNat < s.cfg.imemWords ∧ WritesWord i s j := by
  simp only [writesWord_iff]
  rw [abandonedWords, decodeBytes_fetchBytes, fetchable]
  cases decode (s.imemWord s.pc.toNat) with
  | illegal why => simp
  | instr i => by_cases h : storesHere i s <;> simp [h]

end

/-- The turns still to come are no part of what an instruction writes. -/
theorem writesWord_turns (i : Instr) (s : State) (rest : List Turn) (j : Nat) :
    WritesWord i { s with turns := rest } j ↔ WritesWord i s j := by
  cases i <;> exact Iff.rfl

theorem mem_abandonedWords_turns {s : State} {rest : List Turn} {j : Nat} :
    j ∈ abandonedWords { s with turns := rest } ↔ j ∈ abandonedWords s := by
  simp only [mem_abandonedWords, writesWord_turns]
  rfl

/-! ## Reset -/

section
variable (s : State)

@[simp] theorem readR_resetMachine (k : RReg) : (resetMachine s).readR k = 0#32 := by
  simp [State.readR, resetMachine, State.resetWith]

@[simp] theorem readF_resetMachine (k : FReg) : (resetMachine s).readF k = 0#32 := by
  simp [State.readF, resetMachine, State.resetWith]

@[simp] theorem readP_resetMachine (k : PReg) : (resetMachine s).readP k = 0#64 := by
  simp [State.readP, resetMachine, State.resetWith]

end

/-- The first half of a reset in the middle of an instruction: the words of its target region become free words, before
the machine itself is reset (R340; `step_of_resetDuringInstruction`). -/
def abandonInstruction (s : State) : State := leaveUnspecified (abandonedWords s) s

theorem step_of_reset {s : State} {rest : List Turn} (legal : s.cfg.legal = true) (h : s.turns = .reset :: rest) :
    step s = .next (resetMachine { s with turns := rest }) := step_of_turn legal h

theorem step_of_resetDuringInstruction {s : State} {rest : List Turn} (legal : s.cfg.legal = true)
    (h : s.turns = .resetDuringInstruction :: rest) :
    step s = .next (resetMachine (abandonInstruction { s with turns := rest })) := step_of_turn legal h

section
variable (s : State)

theorem abandonInstruction_frame : abandonInstruction s =
    { s with dmem := (abandonInstruction s).dmem, freeIndex := (abandonInstruction s).freeIndex } :=
  leaveUnspecified_frame _ s

@[simp] theorem abandonInstruction_cfg : (abandonInstruction s).cfg = s.cfg := by rw [abandonInstruction_frame]
@[simp] theorem abandonInstruction_imem : (abandonInstruction s).imem = s.imem := by rw [abandonInstruction_frame]
@[simp] theorem abandonInstruction_turns : (abandonInstruction s).turns = s.turns := by rw [abandonInstruction_frame]

variable {s} {rest : List Turn}

theorem dmemByte_abandonInstruction {a : Nat} (h : a / 4 ∉ abandonedWords s) :
    (abandonInstruction { s with turns := rest }).dmemByte a = s.dmemByte a :=
  dmemByte_leaveUnspecified_other _ fun ha => h (mem_abandonedWords_turns.1 ha)

theorem dmemWord_abandonInstruction {j : Nat} (h : j ∈ abandonedWords s) :
    ∃ k, (abandonInstruction { s with turns := rest }).dmemWord j = Config.abandonedWord k :=
  dmemWord_leaveUnspecified _ (.inl (mem_abandonedWords_turns.2 h))

end

end Sys2Proof.Machine

open Sys2Proof Sys2Proof.Machine

/-- Settles O14: either reset is `resetMachine`, of the same memories or of those that the abandoned instruction leaves,
whose free words are those it would have written. -/
theorem resetFromAnyState : Obligations.ResetFromAnyState := by
  unfold Obligations.ResetFromAnyState
  intro s rest legal hturns
  obtain ⟨u, hstep, hcfg, himem, hrest, hsame, hfree⟩ : ∃ u, step s = .next (resetMachine u) ∧ u.cfg = s.cfg ∧
      u.imem = s.imem ∧ u.turns = rest ∧ (s.turns = .reset :: rest → SameDmem s u) ∧
      (s.turns = .resetDuringInstruction :: rest → u = abandonInstruction { s with turns := rest }) := by
    rcases hturns with h | h
    · exact ⟨_, step_of_reset legal h, rfl, rfl, rfl, fun _ _ => rfl, by simp [h]⟩
    · exact ⟨_, step_of_resetDuringInstruction legal h, by simp, by simp, by simp, by simp [h], fun _ => rfl⟩
  refine ⟨_, hstep, readR_resetMachine u, readF_resetMachine u, readP_resetMachine u, rfl, rfl, rfl, rfl, rfl, rfl, rfl,
    rfl, rfl, hcfg, fun a => congrArg (memByte · a) himem, hrest, rfl, hsame, fun h => ?_⟩
  obtain rfl := hfree h
  refine ⟨fun a ha => dmemByte_abandonInstruction ha, fun j hj => dmemWord_abandonInstruction hj, fun j hj => ?_,
    fun i hi inside => ⟨fun hstores j hj => ?_, fun j hj => ?_, fun byte hb => ?_⟩, fun hnone a => ?_⟩
  · obtain ⟨i, hi, -, hw⟩ := mem_abandonedWords.1 hj
    exact ⟨i, hi, (writesWord_iff.1 hw).2⟩
  · exact dmemWord_abandonInstruction (mem_abandonedWords.2 ⟨i, hi, inside, writesWord_iff.2 ⟨hstores, hj⟩⟩)
  · exact dmemWord_abandonInstruction (mem_abandonedWords.2 ⟨i, hi, inside, hj⟩)
  · refine dmemByte_abandonInstruction fun hmem => hb ?_
    obtain ⟨i', hi', -, hw⟩ := mem_abandonedWords.1 hmem
    cases hi.symm.trans hi'
    exact hw
  · refine dmemByte_abandonInstruction fun hmem => ?_
    obtain ⟨i, hi, inside, -⟩ := mem_abandonedWords.1 hmem
    obtain outside | ⟨why, hwhy⟩ := hnone
    · omega
    · cases hi.symm.trans hwhy

end
